-- ==== Sys2Proof/Word.lean ====
section
/-! DEFINITION. The word types of the block (spec/00_scope.md R9, R11). An operand or result register and a transfer context
have `CTX_W` bits, a parameter (R9, R21): they are unsigned numbers (R11), bounded where software writes them (log 3). -/

namespace Sys2Proof

/-- A byte of device-bus memory (R70). -/
abbrev Byte := BitVec 8

/-- A 16-bit length (R25). -/
abbrev U16 := BitVec 16

/-- A 32-bit register, index, address or command word (R11, R73, R104). -/
abbrev U32 := BitVec 32

end Sys2Proof
end

