-- ==== Sys2Proof/Config.lean ====
section
/-! DEFINITION. The implementation parameters (spec/00_scope.md R9), the reference configuration (D44) and the free
values of the model. -/

namespace Sys2Proof

/-- Bytes in a descriptor: `DESC_SIZE`, spec/30_encoding.md R100. -/
def descSize : Nat := 12

/-- The failed-read sentinel `ALL_ONES`, spec/00_scope.md R9. -/
def allOnes : U32 := 0xFFFFFFFF#32

/-- The registers of a control block, spec/10_state.md R40. -/
inductive RegField where
  | srcBase | srcSize | dstBase | dstSize
  | srcRdIdx | srcWrIdx | dstRdIdx | dstWrIdx
  | srcWmLow | srcWmHigh | dstWmLow | dstWmHigh
  | intEnable | intStatus
deriving DecidableEq, Repr

/-- Every register of a control block, in R40's order. -/
def allFields : List RegField :=
  [.srcBase, .srcSize, .dstBase, .dstSize, .srcRdIdx, .srcWrIdx, .dstRdIdx, .dstWrIdx,
   .srcWmLow, .srcWmHigh, .dstWmLow, .dstWmHigh, .intEnable, .intStatus]

/-- The parameters `OFF_*`: the byte offset of each register inside a control block, R9, R40. -/
structure RegOffsets where
  srcBase : U32
  srcSize : U32
  dstBase : U32
  dstSize : U32
  srcRdIdx : U32
  srcWrIdx : U32
  dstRdIdx : U32
  dstWrIdx : U32
  srcWmLow : U32
  srcWmHigh : U32
  dstWmLow : U32
  dstWmHigh : U32
  intEnable : U32
  intStatus : U32
deriving DecidableEq, Repr

/-- The parameters of R9 that are fixed for one block. `N_PIPES` and `N_HOSTS` are the lengths of the state's pipe table
and port table (log 2); `DESC_SIZE` and `TID_W` are fixed. The state carries one `Config` and never
writes it, so a statement about every state is a statement about every configuration. -/
structure Config where
  /-- `CTX_W`: the bits of a port register and of a transfer context. -/
  ctxW : Nat
  /-- `RING_ALIGN`. -/
  ringAlign : Nat
  /-- `DEV_ADDR_LIMIT`: the first address beyond the device's addressable range. -/
  devAddrLimit : Nat
  /-- `CB_BASE0`. -/
  cbBase0 : U32
  /-- `PIPE_STRIDE`. -/
  pipeStride : U32
  /-- `OFF_*`. -/
  offsets : RegOffsets
  /-- `INT_SUMMARY_ADDR`. -/
  intSummaryAddr : U32
  /-- `CC_MASK`. -/
  ccMask : U32
  /-- `WM_MASK`. -/
  wmMask : U32
  /-- `ERR_MASK`. -/
  errMask : U32
deriving DecidableEq, Repr

/-- REFCFG, spec/92_eei_decisions.md D44 and spec/10_state.md R40. DESIGN CHOICE (log 2). -/
def Config.ref : Config where
  ctxW := 64
  ringAlign := 4
  devAddrLimit := 0x100000000
  cbBase0 := 0x0000#32
  pipeStride := 0x400#32
  offsets :=
    { srcBase := 0x00#32, srcSize := 0x04#32, dstBase := 0x08#32, dstSize := 0x0C#32,
      srcRdIdx := 0x10#32, srcWrIdx := 0x14#32, dstRdIdx := 0x18#32, dstWrIdx := 0x1C#32,
      srcWmLow := 0x20#32, srcWmHigh := 0x24#32, dstWmLow := 0x28#32, dstWmHigh := 0x2C#32,
      intEnable := 0x30#32, intStatus := 0x34#32 }
  intSummaryAddr := 0x2000#32
  ccMask := 0x1#32
  wmMask := 0x1E#32
  errMask := 0x3E0#32

/-- `N_PIPES` of REFCFG (log 2). -/
def Config.refPipes : Nat := 8

/-- `N_HOSTS` of REFCFG (log 2). -/
def Config.refHosts : Nat := 1

/-- The answer of the external allocator to one `DmaAlloc`, spec/00_scope.md R17: failure, or a region named by its
host-virtual address `va` (log 12) and its device-bus address `da`. `contents` are the bytes the region holds when it is returned
("whatever the allocator returned", spec/46_lifecycle.md R191); a byte of the region not listed is 0. -/
inductive AllocAnswer where
  | fail
  | region (va : Nat) (da : U32) (contents : List (Nat × Byte))
deriving DecidableEq, Repr, Inhabited

/-- FREE VALUE: the index values a freshly allocated ring holds, which R56 leaves unspecified (log 9). -/
opaque Config.freeIndex : Nat → U32

/-- FREE VALUE: the allocator's answer when the state lists none (R17, U16, log 10). -/
opaque Config.freeAnswer : Nat → AllocAnswer

end Sys2Proof
end

