-- ==== Sys2Proof/Syntax.lean ====
section
/-! DEFINITION. The operations of the block, one constructor per row of spec/opcode_table.json (spec/30_encoding.md
R105 to R108). -/

namespace Sys2Proof

/-- The `PIPE` field of a command word, R105. -/
abbrev PipeField := BitVec 5

/-- The `TID` field of a command word, R105 (`TID_W = 14`, R9). -/
abbrev TidField := BitVec 14

/-- An operation. `nl` is the `NL` bit (R106), `pipe` the `PIPE` field, `g`, `bs` and `tid` the gather request, byte-swap
request and transfer id of `send` (R105). The operands in `x[1]` to `x[4]` are no part of the command word (R109). -/
inductive Instr where
  /-- R206 -/
  | lock
  /-- R208 -/
  | unlock
  /-- R141 -/
  | send (nl : Bool) (pipe : PipeField) (g : Bool) (bs : Bool) (tid : TidField)
  /-- R147 -/
  | revertLastGather (nl : Bool) (pipe : PipeField)
  /-- R150 -/
  | completedSendNext (nl : Bool) (pipe : PipeField)
  /-- R153 -/
  | cancelSendNext (nl : Bool) (pipe : PipeField)
  /-- R140 -/
  | availableSendSlots (nl : Bool) (pipe : PipeField)
  /-- R161 -/
  | rxPostBuf (nl : Bool) (pipe : PipeField)
  /-- R164 -/
  | rxUpdateWriteIdx (nl : Bool) (pipe : PipeField)
  /-- R170 -/
  | completedRecvNext (nl : Bool) (pipe : PipeField)
  /-- R173 -/
  | revokeRecvNext (nl : Bool) (pipe : PipeField)
  /-- R160 -/
  | availableRecvSlots (nl : Bool) (pipe : PipeField)
  /-- R190 -/
  | allocPipe (nl : Bool) (pipe : PipeField)
  /-- R192 -/
  | initPipe (nl : Bool) (pipe : PipeField)
  /-- R194 -/
  | deinitPipe (nl : Bool) (pipe : PipeField)
  /-- R195 -/
  | freePipe (nl : Bool) (pipe : PipeField)
  /-- R180; no nolock form (R106) -/
  | servicePipe (pipe : PipeField)
  /-- R183; no nolock form (R106) -/
  | serviceAnyPending
  /-- R186 -/
  | enableInterrupts (nl : Bool)
  /-- R187 -/
  | disableInterrupts (nl : Bool)
deriving DecidableEq, Repr

end Sys2Proof
end

