-- ==== Sys2Proof/WellFormed.lean ====
section
/-! DEFINITION. When a configuration and an operation are well formed (spec/00_scope.md R9, spec/20_memory.md R76,
spec/30_encoding.md R111). -/

namespace Sys2Proof

/-- The offset parameter of one register, spec/10_state.md R40. -/
def RegOffsets.get (o : RegOffsets) : RegField → U32
  | .srcBase => o.srcBase
  | .srcSize => o.srcSize
  | .dstBase => o.dstBase
  | .dstSize => o.dstSize
  | .srcRdIdx => o.srcRdIdx
  | .srcWrIdx => o.srcWrIdx
  | .dstRdIdx => o.dstRdIdx
  | .dstWrIdx => o.dstWrIdx
  | .srcWmLow => o.srcWmLow
  | .srcWmHigh => o.srcWmHigh
  | .dstWmLow => o.dstWmLow
  | .dstWmHigh => o.dstWmHigh
  | .intEnable => o.intEnable
  | .intStatus => o.intStatus

/-- `N_PIPES` is at least 1 and at most 32, `N_HOSTS` at least 1 (R9, D37). -/
def countsOk (nPipes nHosts : Nat) : Bool :=
  decide (1 ≤ nPipes) && decide (nPipes ≤ 32) && decide (1 ≤ nHosts)

/-- `CTX_W` is at least 32, so that a 32-bit address or count fits a port register (R9, R21). -/
def Config.widthOk (c : Config) : Bool := decide (32 ≤ c.ctxW)

/-- `RING_ALIGN` is a positive multiple of 4, and device-bus addresses are `u32` (R9, R51). -/
def Config.memoryOk (c : Config) : Bool :=
  decide (0 < c.ringAlign) && decide (c.ringAlign % 4 = 0) && decide (c.devAddrLimit ≤ 2 ^ 32)

/-- The interrupt groups are non-empty and pairwise disjoint (R9, R44). -/
def Config.masksOk (c : Config) : Bool :=
  decide (c.ccMask ≠ 0) && decide (c.wmMask ≠ 0) && decide (c.errMask ≠ 0) &&
  decide (c.ccMask &&& c.wmMask = 0) && decide (c.ccMask &&& c.errMask = 0) && decide (c.wmMask &&& c.errMask = 0)

/-- The offsets are distinct multiples of 4 inside the stride; the control blocks lie inside the register space without
wrap-around, and `INT_SUMMARY`, 4-byte aligned too, lies outside them (R9, R71, R76). -/
def Config.mapOk (c : Config) (nPipes : Nat) : Bool :=
  decide ((allFields.map c.offsets.get).Nodup) &&
  allFields.all (fun f => decide ((c.offsets.get f).toNat % 4 = 0) &&
    decide ((c.offsets.get f).toNat < c.pipeStride.toNat)) &&
  decide (c.pipeStride.toNat % 4 = 0) && decide (c.cbBase0.toNat % 4 = 0) &&
  decide (c.intSummaryAddr.toNat % 4 = 0) &&
  decide (c.cbBase0.toNat + nPipes * c.pipeStride.toNat ≤ 2 ^ 32) &&
  (decide (c.intSummaryAddr.toNat < c.cbBase0.toNat) ||
   decide (c.cbBase0.toNat + nPipes * c.pipeStride.toNat ≤ c.intSummaryAddr.toNat))

/-- A configuration R9 and R76 allow. -/
def Config.wf (c : Config) (nPipes nHosts : Nat) : Bool :=
  countsOk nPipes nHosts && c.widthOk && c.memoryOk && c.masksOk && c.mapOk nPipes

/-- The `PIPE` operand of an operation, none for the engine-wide ones (R105). -/
def Instr.pipe? : Instr → Option PipeField
  | .lock | .unlock | .serviceAnyPending | .enableInterrupts _ | .disableInterrupts _ => none
  | .send _ p _ _ _ => some p
  | .revertLastGather _ p | .completedSendNext _ p | .cancelSendNext _ p | .availableSendSlots _ p
  | .rxPostBuf _ p | .rxUpdateWriteIdx _ p | .completedRecvNext _ p | .revokeRecvNext _ p
  | .availableRecvSlots _ p | .allocPipe _ p | .initPipe _ p | .deinitPipe _ p | .freePipe _ p
  | .servicePipe p => some p

/-- The `NL` bit of an operation, none where it has no nolock form (R106). -/
def Instr.nolock? : Instr → Option Bool
  | .lock | .unlock | .servicePipe _ | .serviceAnyPending => none
  | .send nl _ _ _ _ => some nl
  | .revertLastGather nl _ | .completedSendNext nl _ | .cancelSendNext nl _ | .availableSendSlots nl _
  | .rxPostBuf nl _ | .rxUpdateWriteIdx nl _ | .completedRecvNext nl _ | .revokeRecvNext nl _
  | .availableRecvSlots nl _ | .allocPipe nl _ | .initPipe nl _ | .deinitPipe nl _ | .freePipe nl _
  | .enableInterrupts nl | .disableInterrupts nl => some nl

/-- `PIPE < N_PIPES`, the one check of R111 on a command word that depends on the configuration: every other operand
of `Instr` has exactly the values its field can hold. -/
def Instr.wf (nPipes : Nat) (i : Instr) : Bool :=
  match i.pipe? with
  | none => true
  | some p => decide (p.toNat < nPipes)

end Sys2Proof
end

