-- ==== Sys2Proof/Decode.lean ====
section
/-! DEFINITION. The command word: decoder and encoder (spec/30_encoding.md R104 to R108, R111). -/

namespace Sys2Proof

/-- The five formats of R107. -/
inductive Format where
  | S | P | PX | E | EX
deriving DecidableEq, Repr

/-- The mask of a format, R107: the bits a command word of that format fixes. -/
def Format.mask : Format → U32
  | .S  => 0xC00000FF#32
  | .P  => 0xFFFFC0FF#32
  | .PX => 0xFFFFE0FF#32
  | .E  => 0xFFFFDFFF#32
  | .EX => 0xFFFFFFFF#32

/-- One row of the opcode map, R108. -/
structure OpcodeRow where
  mnemonic : String
  format : Format
  pattern : U32
deriving DecidableEq, Repr

/-- The opcode map, R108. -/
def opcodeRows : List OpcodeRow :=
  [⟨"lock", .EX, 0x00000001#32⟩,
   ⟨"unlock", .EX, 0x00000002#32⟩,
   ⟨"send", .S, 0x00000010#32⟩,
   ⟨"revert_last_gather", .P, 0x00000011#32⟩,
   ⟨"completed_send_next", .P, 0x00000012#32⟩,
   ⟨"cancel_send_next", .P, 0x00000013#32⟩,
   ⟨"available_send_slots", .P, 0x00000014#32⟩,
   ⟨"rx_post_buf", .P, 0x00000020#32⟩,
   ⟨"rx_update_write_idx", .P, 0x00000021#32⟩,
   ⟨"completed_recv_next", .P, 0x00000022#32⟩,
   ⟨"revoke_recv_next", .P, 0x00000023#32⟩,
   ⟨"available_recv_slots", .P, 0x00000024#32⟩,
   ⟨"alloc_pipe", .P, 0x00000030#32⟩,
   ⟨"init_pipe", .P, 0x00000031#32⟩,
   ⟨"deinit_pipe", .P, 0x00000032#32⟩,
   ⟨"free_pipe", .P, 0x00000033#32⟩,
   ⟨"service_pipe", .PX, 0x00000040#32⟩,
   ⟨"service_any_pending", .EX, 0x00000041#32⟩,
   ⟨"enable_interrupts", .E, 0x00000042#32⟩,
   ⟨"disable_interrupts", .E, 0x00000043#32⟩]

/-- "A word matches a row when `(word & mask) == match`", R107. -/
def OpcodeRow.accepts (r : OpcodeRow) (w : U32) : Bool :=
  w &&& r.format.mask == r.pattern

/-- The fields of a command word, R105. -/
def opField (w : U32) : BitVec 8 := w.extractLsb' 0 8
def pipeField (w : U32) : PipeField := w.extractLsb' 8 5
def nlField (w : U32) : Bool := w.getLsbD 13
def gField (w : U32) : Bool := w.getLsbD 14
def bsField (w : U32) : Bool := w.getLsbD 15
def tidField (w : U32) : TidField := w.extractLsb' 16 14

/-- Why a command word is illegal (R111). -/
inductive IllegalWord where
  /-- `OP` is in no row. -/
  | unknownOpcode
  /-- A bit the row's format fixes at zero is set. -/
  | fixedBitSet
deriving DecidableEq, Repr

/-- What the decoder answers. -/
inductive Decoded where
  | ok (i : Instr)
  | illegal (why : IllegalWord)
deriving DecidableEq, Repr

/-- The operation `i` where the bits that the format fixes are the row's: outside `OP` they are all zero, R107. -/
def Format.accept (f : Format) (w : U32) (i : Instr) : Decoded :=
  if w &&& f.mask = (opField w).setWidth 32 then .ok i else .illegal .fixedBitSet

/-- The decoder, R108. `PIPE < N_PIPES` (R111) depends on the configuration and is checked where the operation is
executed (log 27). -/
def decode (w : U32) : Decoded :=
  match (opField w).toNat with
  | 0x01 => Format.accept .EX w .lock
  | 0x02 => Format.accept .EX w .unlock
  | 0x10 => Format.accept .S w (.send (nlField w) (pipeField w) (gField w) (bsField w) (tidField w))
  | 0x11 => Format.accept .P w (.revertLastGather (nlField w) (pipeField w))
  | 0x12 => Format.accept .P w (.completedSendNext (nlField w) (pipeField w))
  | 0x13 => Format.accept .P w (.cancelSendNext (nlField w) (pipeField w))
  | 0x14 => Format.accept .P w (.availableSendSlots (nlField w) (pipeField w))
  | 0x20 => Format.accept .P w (.rxPostBuf (nlField w) (pipeField w))
  | 0x21 => Format.accept .P w (.rxUpdateWriteIdx (nlField w) (pipeField w))
  | 0x22 => Format.accept .P w (.completedRecvNext (nlField w) (pipeField w))
  | 0x23 => Format.accept .P w (.revokeRecvNext (nlField w) (pipeField w))
  | 0x24 => Format.accept .P w (.availableRecvSlots (nlField w) (pipeField w))
  | 0x30 => Format.accept .P w (.allocPipe (nlField w) (pipeField w))
  | 0x31 => Format.accept .P w (.initPipe (nlField w) (pipeField w))
  | 0x32 => Format.accept .P w (.deinitPipe (nlField w) (pipeField w))
  | 0x33 => Format.accept .P w (.freePipe (nlField w) (pipeField w))
  | 0x40 => Format.accept .PX w (.servicePipe (pipeField w))
  | 0x41 => Format.accept .EX w .serviceAnyPending
  | 0x42 => Format.accept .E w (.enableInterrupts (nlField w))
  | 0x43 => Format.accept .E w (.disableInterrupts (nlField w))
  | _ => .illegal .unknownOpcode

/-- A word of the opcode table's numbering, read by the decoder. Every operation is one 32-bit word (R104), so bits above
`nbits` are zero and a number that needs more than 32 bits is no command word. -/
def decodeTableWord (nbits w : Nat) : Option Instr :=
  if w % 2 ^ nbits < 2 ^ 32 then
    match decode (BitVec.ofNat 32 (w % 2 ^ nbits)) with
    | .ok i => some i
    | .illegal _ => none
  else none

/-- One bit of a command word. -/
def bit (b : Bool) : BitVec 1 := BitVec.ofBool b

/-- The patterns of R107, bit 31 on the left. -/
def packS (tid : TidField) (bs g nl : Bool) (p : PipeField) (op : BitVec 8) : U32 :=
  0#2 ++ tid ++ bit bs ++ bit g ++ bit nl ++ p ++ op
def packP (nl : Bool) (p : PipeField) (op : BitVec 8) : U32 := 0#18 ++ bit nl ++ p ++ op
def packPX (p : PipeField) (op : BitVec 8) : U32 := 0#19 ++ p ++ op
def packE (nl : Bool) (op : BitVec 8) : U32 := 0#18 ++ bit nl ++ 0#5 ++ op
def packEX (op : BitVec 8) : U32 := 0#24 ++ op

/-- The command word of an operation, R105 to R108. -/
def encode : Instr → U32
  | .lock => packEX 0x01#8
  | .unlock => packEX 0x02#8
  | .send nl p g bs tid => packS tid bs g nl p 0x10#8
  | .revertLastGather nl p => packP nl p 0x11#8
  | .completedSendNext nl p => packP nl p 0x12#8
  | .cancelSendNext nl p => packP nl p 0x13#8
  | .availableSendSlots nl p => packP nl p 0x14#8
  | .rxPostBuf nl p => packP nl p 0x20#8
  | .rxUpdateWriteIdx nl p => packP nl p 0x21#8
  | .completedRecvNext nl p => packP nl p 0x22#8
  | .revokeRecvNext nl p => packP nl p 0x23#8
  | .availableRecvSlots nl p => packP nl p 0x24#8
  | .allocPipe nl p => packP nl p 0x30#8
  | .initPipe nl p => packP nl p 0x31#8
  | .deinitPipe nl p => packP nl p 0x32#8
  | .freePipe nl p => packP nl p 0x33#8
  | .servicePipe p => packPX p 0x40#8
  | .serviceAnyPending => packEX 0x41#8
  | .enableInterrupts nl => packE nl 0x42#8
  | .disableInterrupts nl => packE nl 0x43#8

end Sys2Proof
end

