-- ==== Sys2Proof/Machine/State.lean ====
section
/-! DEFINITION. The state of the block as plain data (spec/10_state.md), the reasons a step can stop, and reset (R55). -/

namespace Sys2Proof.Machine

/-- A sparse array in canonical form: keys strictly rising; a key that is not listed reads as the array's default. -/
abbrev Sparse (α : Type) := List (Nat × α)

/-- Device-bus memory, R51 (2): bytes by address. An unlisted byte reads as 0 (DESIGN CHOICE, log 8). -/
abbrev Memory := List Host.Cell

/-- A ring, R27. The descriptors `r.E` are bytes of device-bus memory at `base`; `r.mask` is computed from `cap`. -/
structure Ring where
  /-- `capacity`, a power of two. -/
  cap : U32
  /-- `device_address`: the device-bus base. -/
  base : U32
  /-- `owner_address`: the host-virtual base (log 12). -/
  owner : Nat
  /-- `sw_index`, the consumer side. -/
  sw : U32
  /-- `write_index`, the producer side. -/
  wr : U32
  /-- The contexts by slot; an unlisted slot is `empty`. -/
  ctx : Sparse Nat
deriving DecidableEq, Repr

/-- A source ring: a ring with `hw_index`, the cached completion index (R27). -/
structure SrcRing extends Ring where
  hw : U32
deriving DecidableEq, Repr

/-- `P[id].phase`, R31. -/
inductive Phase where
  | unallocated | allocated | active
deriving DecidableEq, Repr

/-- A pipe, R30, R31. `id` is its position in the pipe table and `control_block_address` is computed (log 2). -/
structure Pipe where
  phase : Phase
  src : Option SrcRing
  dst : Option Ring
  maxSendSize : U32
  hasSendCb : Bool
  hasRecvCb : Bool
  interruptDisabled : Bool
  reusesReceiveContext : Bool
deriving DecidableEq, Repr

/-- The control-block registers of one pipe, R40. -/
structure CtrlBlock where
  srcBase : U32
  srcSize : U32
  dstBase : U32
  dstSize : U32
  srcRdIdx : U32
  srcWrIdx : U32
  dstRdIdx : U32
  dstWrIdx : U32
  srcWmLow : U32
  srcWmHigh : U32
  dstWmLow : U32
  dstWmHigh : U32
  intEnable : U32
  intStatus : U32
deriving DecidableEq, Repr

/-- The device's hidden state of one pipe, R49. -/
structure DeviceState where
  dstLenIdx : U32
  ccPending : Bool
deriving DecidableEq, Repr

/-- One entry of the pipe table: the pipe, its control block and the device's hidden state. -/
structure PipeEntry where
  pipe : Pipe
  cb : CtrlBlock
  dev : DeviceState
deriving DecidableEq, Repr

/-- Where a service operation stands, R180 and R183 (log 16). -/
inductive SvcStage where
  /-- Between two pipes of `service_any_pending`: `svc[h] = (none, rem)`. -/
  | scan
  /-- Phase A of pipe `id` is still to run (the lock was held). -/
  | phaseA (id : Nat)
  /-- Phase B: the receive callback is still to be invoked. -/
  | beforeRecv (id : Nat)
  /-- Phase B: inside the receive callback. -/
  | inRecv (id : Nat)
  /-- Phase B: the send callback is still to be invoked. -/
  | beforeSend (id : Nat)
  /-- Phase B: inside the send callback. -/
  | inSend (id : Nat)
  /-- Phase C of pipe `id` is still to run. -/
  | phaseC (id : Nat)
deriving DecidableEq, Repr

/-- `svc[h]`, R24: the stage, whether `service_any_pending` encloses it, and its remaining summary bits. -/
structure Svc where
  stage : SvcStage
  enclosed : Bool
  remaining : U32
deriving DecidableEq, Repr

/-- A host port: its five registers (R21; each below `2 ^ CTX_W`, log 3), the operation that waits for the lock (R207) and `svc[h]` (R24). -/
structure Port where
  x0 : Nat
  x1 : Nat
  x2 : Nat
  x3 : Nat
  x4 : Nat
  waiting : Option Instr
  svc : Option Svc
deriving DecidableEq, Repr

/-- The kinds of warning, R240. -/
inductive WarnKind where
  | oversizedSend | nothingToRevert
deriving DecidableEq, Repr

/-- An output of the block (logs 20, 35): a primitive of R14 to R18 it performed, in the order performed. -/
inductive Event where
  /-- `RegRead32(off)` gave `v` (R16). -/
  | regRead (off v : U32)
  /-- `RegWrite32(off, v)` was issued (R16). -/
  | regWrite (off v : U32)
  /-- `MemWrite(addr, 4, v)` (R14). -/
  | memWrite (addr : Nat) (v : U32)
  /-- Every byte of `[addr, addr + n)` was zeroed (R192). -/
  | memZero (addr n : Nat)
  /-- `Barrier()` (R15, R80). -/
  | barrier
  /-- `warn(k)`, naming port and pipe (R240). -/
  | warn (k : WarnKind) (port pipe : Nat)
  /-- `notify_recv(id)` to the software behind a port (R181). -/
  | notifyRecv (port pipe : Nat)
  /-- `notify_send(id)` to the software behind a port (R181). -/
  | notifySend (port pipe : Nat)
  /-- `DmaAlloc(nbytes)` was asked (R17). -/
  | dmaAlloc (nbytes : Nat)
  /-- `DmaRelease` of the region at `base` (R17). -/
  | dmaRelease (base : U32) (nbytes : Nat)
  /-- The device read a descriptor, or a field of one, at an address (R217, R218). What it saw is not recorded: a slot that
  was rewritten inside its window may be seen old or new (U12, log 35). -/
  | devRead (pipe addr : Nat)
deriving DecidableEq, Repr

/-- A move of an agent (log 1): the list of them in the state says what happens next. -/
inductive Input where
  /-- Software behind port `h` writes `x[h][i]` (R21), the low `CTX_W` bits of `v` (log 3). -/
  | writeX (h : Nat) (i : Fin 5) (v : Nat)
  /-- Software behind port `h` writes `CMD[h]` (R104). -/
  | command (h : Nat) (w : U32)
  /-- Port `h` goes on: the waiting operation tries the lock, or a service operation takes its next stage. -/
  | advance (h : Nat)
  /-- The callback running on port `h` returns (R181). -/
  | callbackReturn (h : Nat)
  /-- Software writes a 4-byte field of ring memory through `owner` (R164, R270). -/
  | hostStore (addr : Nat) (v : U32)
  /-- `dev_src_complete(id)` (R217). -/
  | devSrcComplete (id : Nat)
  /-- `dev_dst_write_len(id, L)` with the draws of R218 and U11: `upper` are bits 31:16 of the length word. -/
  | devDstWriteLen (id : Nat) (len : U16) (upper : U16) (flags : Option U32)
  /-- `dev_dst_advance(id)` (R219). -/
  | devDstAdvance (id : Nat)
  /-- `dev_raise_cc(id)` (R221). -/
  | devRaiseCc (id : Nat)
  /-- `dev_raise_other(id, m)` (R222). -/
  | devRaiseOther (id : Nat) (m : U32)
  /-- `env_device_dies` (R223). -/
  | envDeviceDies
deriving DecidableEq, Repr

/-- The whole machine. `cfg` is constant; `inputs`, `port`, `allocs`, `draws` and `trace` are the model's own. -/
structure State where
  /-- The parameters of R9. -/
  cfg : Config
  /-- The pipe table with control blocks; its length is `N_PIPES` (R32). -/
  pipes : List PipeEntry
  /-- The host ports; their number is `N_HOSTS` (R20). -/
  ports : List Port
  /-- `lock_owner`, R33. -/
  lockOwner : Option Nat
  /-- `dev_alive`, R46. -/
  devAlive : Bool
  /-- Device-bus memory, R51. -/
  mem : Memory
  /-- The allocator's answers to come, R17 (log 10). -/
  allocs : List AllocAnswer
  /-- How many free values have been drawn (logs 9, 10). -/
  draws : Nat
  /-- What the agents do next (log 1). -/
  inputs : List Input
  /-- The port whose operation the step runs. -/
  port : Nat
  /-- The block's outputs, newest first (log 20). -/
  trace : List Event
deriving DecidableEq, Repr

/-- A step that stops with a fault. The block itself has none (R230). -/
inductive Fault where
  /-- Raised by an operation or device move that would access a device-bus address at or above `DEV_ADDR_LIMIT`, which
  does not exist (R51, R77). Safe: no result is given (log 21). -/
  | outsideDeviceSpace
deriving DecidableEq, Repr

/-- A call the spec gives no meaning (R241, spec/93_implementation_defined.md part 2). Every one is safe: no result
is given. -/
inductive Refusal where
  /-- Raised by `exec`'s arm of an instruction that has no meaning in the model. Safe. -/
  | notModelled (mnemonic : String)
  /-- `IllegalCommand`: an illegal command word or operand (R111). Raised at decoding and by every operation. Safe. -/
  | illegalCommand
  /-- `NolockWithoutLock`: a nolock form by a port that does not hold the lock (R209). Safe. -/
  | nolockWithoutLock
  /-- `RelockByOwner`: `lock`, a locked form or a service operation by the port that holds the lock, or a callback that
  returns holding it (R206, R210, R211, R277). Safe. -/
  | relockByOwner
  /-- `UnlockByNonOwner`: `unlock` by a port that does not hold the lock (R208). Safe. -/
  | unlockByNonOwner
  /-- `NestedService`: a service operation from inside a callback on the same port (R182). Safe. -/
  | nestedService
  /-- `PipeNotActive`: a data-path operation or `deinit_pipe` on a pipe that is not Active (R194, R198). Safe. -/
  | pipeNotActive
  /-- `PipeNotAllocated`: `init_pipe` on an Unallocated pipe (R192). Safe. -/
  | pipeNotAllocated
  /-- `PipeAlreadyAllocated`: `alloc_pipe` on a pipe that is not Unallocated (R190). Safe. -/
  | pipeAlreadyAllocated
  /-- `PipeNotDeinitialised`: `free_pipe` on a pipe that is not Allocated (R195). Safe. -/
  | pipeNotDeinitialised
  /-- `NoSourceRing`: a source-ring operation on a pipe without one (R198). Safe. -/
  | noSourceRing
  /-- `NoDestinationRing`: a destination-ring operation on a pipe without one (R198). Safe. -/
  | noDestinationRing
  /-- `LengthTooWide`: `send` with a length of `2^16` or more (R146). Safe. -/
  | lengthTooWide
  /-- `ZeroAdvance`: `rx_update_write_idx` with `n = 0` (R165). Safe. -/
  | zeroAdvance
  /-- `DiagPipeNeedsIntDis`: `alloc_pipe` of the diagnostic pipe without `interrupt_disabled` (R190, R200). Safe. -/
  | diagPipeNeedsIntDis
  /-- `AllocatorContract`: the allocator broke its contract (R72, log 11). Raised by `alloc_pipe`. Safe. -/
  | allocatorContract
deriving DecidableEq, Repr

/-- The outcome of a step. -/
abbrev Outcome := Host.Outcome State Fault Refusal

/-- A pipe at reset, R55; the attributes are unspecified there (DESIGN CHOICE, log 6). -/
def Pipe.reset : Pipe where
  phase := .unallocated
  src := none
  dst := none
  maxSendSize := 0#32
  hasSendCb := false
  hasRecvCb := false
  interruptDisabled := false
  reusesReceiveContext := false

/-- A control block at reset: R55 leaves every register unspecified (DESIGN CHOICE 0, log 5). -/
def CtrlBlock.reset : CtrlBlock where
  srcBase := 0#32
  srcSize := 0#32
  dstBase := 0#32
  dstSize := 0#32
  srcRdIdx := 0#32
  srcWrIdx := 0#32
  dstRdIdx := 0#32
  dstWrIdx := 0#32
  srcWmLow := 0#32
  srcWmHigh := 0#32
  dstWmLow := 0#32
  dstWmHigh := 0#32
  intEnable := 0#32
  intStatus := 0#32

/-- The device's hidden state at reset, unspecified in R55 (DESIGN CHOICE, log 6). -/
def DeviceState.reset : DeviceState where
  dstLenIdx := 0#32
  ccPending := false

/-- An entry of the pipe table at reset. -/
def PipeEntry.reset : PipeEntry where
  pipe := Pipe.reset
  cb := CtrlBlock.reset
  dev := DeviceState.reset

/-- A port at reset: idle (R55); its registers are unspecified there (DESIGN CHOICE 0, log 4). -/
def Port.reset : Port where
  x0 := 0
  x1 := 0
  x2 := 0
  x3 := 0
  x4 := 0
  waiting := none
  svc := none

/-- The machine after reset, R55 and R260, in the reference configuration. -/
def State.reset : State where
  cfg := Config.ref
  pipes := List.replicate Config.refPipes PipeEntry.reset
  ports := List.replicate Config.refHosts Port.reset
  lockOwner := none
  devAlive := true
  mem := []
  allocs := []
  draws := 0
  inputs := []
  port := 0
  trace := []

end Sys2Proof.Machine
end

