-- ==== Sys2Proof/Machine/Flags.lean ====
section
/-! DEFINITION. Status codes, the descriptor flags word and the interrupt bit groups. The block has no condition codes
(spec/10_state.md R23): its only per-operation outcome is the status, its only sticky bits are `INT_STATUS`. -/

namespace Sys2Proof.Machine

/-- The status of an operation, spec/30_encoding.md R112. -/
inductive Status where
  | ok | outOfResources | outOfSpace | notReady | noData | unsupported | outOfMemory
deriving DecidableEq, Repr

/-- The number written to `x[0]`, R112. -/
def statusCode : Status → Nat
  | .ok => 0
  | .outOfResources => 1
  | .outOfSpace => 2
  | .notReady => 3
  | .noData => 4
  | .unsupported => 5
  | .outOfMemory => 6

/-- The flags word `send` writes: `(TID << 2) | (BS << 1) | G`, R102 and R142. -/
def flagsWord (tid : TidField) (bs g : Bool) : U32 :=
  (tid.setWidth 32 <<< 2) ||| ((bit bs).setWidth 32 <<< 1) ||| (bit g).setWidth 32

/-- The transfer id of a flags word: `flags[15:2]`, R102. -/
def flagsTid (flags : U32) : TidField := flags.extractLsb' 2 14

/-- Write-one-to-clear, R45. -/
def clearBits (status m : U32) : U32 := status &&& ~~~m

/-- A pipe requests an interrupt: some cause is both pending and enabled, R47 and R243. The two registers are taken whole, as
R47's formula has them; R44 and U11 would ignore a reserved bit outside the three groups (DESIGN CHOICE, log 36). -/
def CtrlBlock.requests (cb : CtrlBlock) : Bool := cb.intStatus &&& cb.intEnable ≠ 0#32

end Sys2Proof.Machine
end

