-- ==== Sys2Proof/Machine/Index.lean ====
section
/-! DEFINITION. The ring index logic (spec/40_index_arithmetic.md R130 to R134, spec/00_scope.md R10): pure functions of
their arguments and the ring's `entries_mask`. -/

namespace Sys2Proof.Machine

/-- `increment`, R130. -/
def increment (mask index : U32) : U32 := (index + 1#32) &&& mask

/-- `add`, R131. -/
def addIndex (mask index n : U32) : U32 := (index + n) &&& mask

/-- `available_slots`, R132. -/
def availableSlots (mask writeIndex consumerIndex : U32) : U32 :=
  ((consumerIndex - 1#32) - writeIndex) &&& mask

/-- `decrement`, R133. -/
def decrement (mask index : U32) : U32 := (index - 1#32) &&& mask

/-- The count outstanding, R29 and R135 (a). -/
def outstanding (mask writeIndex consumerIndex : U32) : U32 := (writeIndex - consumerIndex) &&& mask

/-- The first of `p`, `2p`, `4p`, ... (at most `fuel` doublings) that is at least `n`. -/
def doubleUntil (n : Nat) : Nat → Nat → Nat
  | 0, p => p
  | fuel + 1, p => if n ≤ p then p else doubleUntil n fuel (2 * p)

/-- `roundup_pow2`, R10: the least power of two that is at least `n`, for `1 ≤ n ≤ 2^31`. -/
def roundupPow2 (n : Nat) : Nat := doubleUntil n 31 1

end Sys2Proof.Machine
end

