-- ==== Sys2Proof/Machine/Memory.lean ====
section
/-! DEFINITION. Sparse arrays and device-bus memory: bytes, 4-byte little-endian fields, descriptors
(spec/20_memory.md R70 to R74, spec/30_encoding.md R100). -/

namespace Sys2Proof.Machine

/-- The value at a key, if listed. -/
def sparseGet {α : Type} : Sparse α → Nat → Option α
  | [], _ => none
  | (k, v) :: rest, a => if k = a then some v else sparseGet rest a

/-- The array with `v` at key `a`, keys kept in rising order. -/
def sparseSet {α : Type} : Sparse α → Nat → α → Sparse α
  | [], a, v => [(a, v)]
  | (k, w) :: rest, a, v =>
    if a < k then (a, v) :: (k, w) :: rest
    else if a = k then (a, v) :: rest
    else (k, w) :: sparseSet rest a v

/-- The array with nothing at key `a`. -/
def sparseErase {α : Type} (m : Sparse α) (a : Nat) : Sparse α :=
  m.filter fun c => decide (c.1 ≠ a)

/-- The array with nothing at the keys of `[a, a + n)`. -/
def sparseEraseRange {α : Type} (m : Sparse α) (a n : Nat) : Sparse α :=
  m.filter fun c => decide (c.1 < a ∨ a + n ≤ c.1)

/-- Keys strictly rising. -/
abbrev sparseSorted {α : Type} (m : Sparse α) : Prop :=
  m.Pairwise fun c d => c.1 < d.1

/-- What an unlisted byte of device-bus memory reads as (DESIGN CHOICE, log 8). -/
def unlistedByte : Byte := 0#8

/-- One byte. -/
def Memory.read (m : Memory) (a : Nat) : Byte :=
  (sparseGet m a).getD unlistedByte

/-- Write one byte, keeping the canonical form. -/
def Memory.write (m : Memory) (a : Nat) (b : Byte) : Memory :=
  if b = unlistedByte then sparseErase m a else sparseSet m a b

/-- The canonical form: addresses strictly rising, no listed byte equal to what an unlisted one reads as. -/
abbrev Memory.wf (m : Memory) : Prop :=
  sparseSorted m ∧ ∀ c ∈ m, c.2 ≠ unlistedByte

/-- `MemRead(a, 4)`, R14, little-endian (R70). -/
def Memory.read4 (m : Memory) (a : Nat) : U32 :=
  Memory.read m (a + 3) ++ Memory.read m (a + 2) ++ Memory.read m (a + 1) ++ Memory.read m a

/-- `MemWrite(a, 4, v)`, R14, little-endian (R70). -/
def Memory.write4 (m : Memory) (a : Nat) (v : U32) : Memory :=
  Memory.write (Memory.write (Memory.write (Memory.write m a (v.extractLsb' 0 8))
    (a + 1) (v.extractLsb' 8 8)) (a + 2) (v.extractLsb' 16 8)) (a + 3) (v.extractLsb' 24 8)

/-- Zero every byte of `[a, a + n)` (R192). -/
def Memory.zero (m : Memory) (a n : Nat) : Memory :=
  sparseEraseRange m a n

/-- The bytes of a region become those the allocator returned (R191): listed bytes inside the region, 0 elsewhere. -/
def Memory.install (m : Memory) (a n : Nat) (contents : List (Nat × Byte)) : Memory :=
  contents.foldl (fun acc c => if a ≤ c.1 ∧ c.1 < a + n then Memory.write acc c.1 c.2 else acc) (Memory.zero m a n)

/-- `r.mask`, R27: `capacity - 1`. -/
def Ring.mask (r : Ring) : U32 := r.cap - 1#32

/-- Bytes of a ring's descriptor array, R77. -/
def Ring.bytes (r : Ring) : Nat := r.cap.toNat * descSize

/-- The device-bus address of descriptor `i`: `r.base + i * 12`, R100, without wrap-around (R135 (d)). -/
def descAddr (base i : U32) : Nat := base.toNat + i.toNat * descSize

/-- The address of the address word of a descriptor, R100. -/
def addrWordAt (base i : U32) : Nat := descAddr base i
/-- The address of the length word of a descriptor, R100. -/
def lenWordAt (base i : U32) : Nat := descAddr base i + 4
/-- The address of the flags word of a descriptor, R100. -/
def flagsWordAt (base i : U32) : Nat := descAddr base i + 8

/-- `r.E[i].addr`, R14. -/
def Memory.descAddrWord (m : Memory) (base i : U32) : U32 := Memory.read4 m (addrWordAt base i)
/-- `r.E[i].len`, R14 and R103: bits 15:0 of the length word. -/
def Memory.descLen (m : Memory) (base i : U32) : U16 := (Memory.read4 m (lenWordAt base i)).setWidth 16
/-- `r.E[i].flags`, R14. -/
def Memory.descFlags (m : Memory) (base i : U32) : U32 := Memory.read4 m (flagsWordAt base i)

end Sys2Proof.Machine
end

