-- ==== Sys2Proof/Machine/Ops.lean ====
section
/-! DEFINITION. The named operations over the state: the tables, the device registers (spec/00_scope.md R16), ring memory
(R14), the lock (spec/48_lock.md), the return of a status (R18, R230; it stands where another machine takes an exception)
and the write-index publisher (R145, R163). -/

namespace Sys2Proof.Machine

/-! ### The tables -/

/-- `N_PIPES`, R9. -/
def State.nPipes (s : State) : Nat := s.pipes.length

/-- `N_HOSTS`, R9. -/
def State.nHosts (s : State) : Nat := s.ports.length

/-- `DIAG_PIPE = N_PIPES - 1`, R9 and R200: whether `id` is the diagnostic pipe. -/
def State.isDiag (s : State) (id : Nat) : Bool := decide (id + 1 = s.nPipes)

/-- The entry of pipe `id`. -/
def State.entry (s : State) (id : Nat) : PipeEntry := s.pipes.getD id PipeEntry.reset

/-- Change the entry of pipe `id`. -/
def State.updEntry (s : State) (id : Nat) (f : PipeEntry → PipeEntry) : State :=
  { s with pipes := s.pipes.modify id f }

/-- `P[id]`, R13. -/
def State.pipe (s : State) (id : Nat) : Pipe := (s.entry id).pipe

/-- Write `P[id]`. -/
def State.setPipe (s : State) (id : Nat) (p : Pipe) : State := s.updEntry id fun e => { e with pipe := p }

/-- Write the source ring of pipe `id`. -/
def State.setSrc (s : State) (id : Nat) (r : SrcRing) : State := s.setPipe id { s.pipe id with src := some r }

/-- Write the destination ring of pipe `id`. -/
def State.setDst (s : State) (id : Nat) (r : Ring) : State := s.setPipe id { s.pipe id with dst := some r }

/-- The port whose operation runs. -/
def State.cur (s : State) : Port := s.ports.getD s.port Port.reset

/-- Write the port whose operation runs. -/
def State.setCur (s : State) (p : Port) : State := { s with ports := s.ports.set s.port p }

/-- Another port than the running one. -/
def State.portAt (s : State) (h : Nat) : Port := s.ports.getD h Port.reset

/-- Record an output (log 20). -/
def State.emit (s : State) (e : Event) : State := { s with trace := e :: s.trace }

/-- `warn(k)`, R240. -/
def State.warn (s : State) (k : WarnKind) (id : Nat) : State := s.emit (.warn k s.port id)

/-! ### Device registers (R16, R40 to R48) -/

/-- A register of the device register space: a control-block register or the interrupt summary. -/
inductive RegId where
  | block (id : Nat) (f : RegField)
  | intSummary
deriving DecidableEq, Repr

/-- `CB(id)`, R16 and R40; the pipe's `control_block_address`, R30. -/
def State.controlBlockAddress (s : State) (id : Nat) : U32 :=
  s.cfg.cbBase0 + BitVec.ofNat 32 id * s.cfg.pipeStride

/-- The byte offset of a register: `REG(id, F)`, R16, or `INT_SUMMARY_ADDR`. -/
def State.regAddr (s : State) : RegId → U32
  | .block id f => s.controlBlockAddress id + s.cfg.offsets.get f
  | .intSummary => s.cfg.intSummaryAddr

/-- What a control block holds in a register. -/
def CtrlBlock.get (cb : CtrlBlock) : RegField → U32
  | .srcBase => cb.srcBase
  | .srcSize => cb.srcSize
  | .dstBase => cb.dstBase
  | .dstSize => cb.dstSize
  | .srcRdIdx => cb.srcRdIdx
  | .srcWrIdx => cb.srcWrIdx
  | .dstRdIdx => cb.dstRdIdx
  | .dstWrIdx => cb.dstWrIdx
  | .srcWmLow => cb.srcWmLow
  | .srcWmHigh => cb.srcWmHigh
  | .dstWmLow => cb.dstWmLow
  | .dstWmHigh => cb.dstWmHigh
  | .intEnable => cb.intEnable
  | .intStatus => cb.intStatus

/-- What a register write does to a control block: every register stores, but `INT_STATUS` clears the bits written as 1
(R45). -/
def CtrlBlock.put (cb : CtrlBlock) (v : U32) : RegField → CtrlBlock
  | .srcBase => { cb with srcBase := v }
  | .srcSize => { cb with srcSize := v }
  | .dstBase => { cb with dstBase := v }
  | .dstSize => { cb with dstSize := v }
  | .srcRdIdx => { cb with srcRdIdx := v }
  | .srcWrIdx => { cb with srcWrIdx := v }
  | .dstRdIdx => { cb with dstRdIdx := v }
  | .dstWrIdx => { cb with dstWrIdx := v }
  | .srcWmLow => { cb with srcWmLow := v }
  | .srcWmHigh => { cb with srcWmHigh := v }
  | .dstWmLow => { cb with dstWmLow := v }
  | .dstWmHigh => { cb with dstWmHigh := v }
  | .intEnable => { cb with intEnable := v }
  | .intStatus => { cb with intStatus := clearBits cb.intStatus v }

/-- What the device does when a register of a control block is written: a non-zero `DST_SIZE` seeds `dst_len_idx`, masked
(R49), from `DST_RD_IDX` and clears `cc_pending` (R216, log 23). -/
def DeviceState.onWrite (d : DeviceState) (cb : CtrlBlock) (v : U32) (f : RegField) : DeviceState :=
  if f = .dstSize ∧ v ≠ 0#32 then { dstLenIdx := cb.dstRdIdx &&& (v - 1#32), ccPending := false } else d

/-- What a register write does to the entry of its pipe. -/
def PipeEntry.put (e : PipeEntry) (v : U32) (f : RegField) : PipeEntry :=
  { e with cb := e.cb.put v f, dev := e.dev.onWrite e.cb v f }

/-- `INT_SUMMARY` over a pipe table, from pipe `i` up: bit `i` is set exactly when pipe `i` requests an interrupt (R47). -/
def summaryFrom (i : Nat) : List PipeEntry → U32
  | [] => 0#32
  | e :: rest => (if e.cb.requests then 1#32 <<< i else 0#32) ||| summaryFrom (i + 1) rest

/-- `INT_SUMMARY`, R47. -/
def State.intSummary (s : State) : U32 := summaryFrom 0 s.pipes

/-- The interrupt request output, R48. -/
def State.irq (s : State) : Bool := s.intSummary ≠ 0#32

/-- What a register holds. -/
def State.regValue (s : State) : RegId → U32
  | .block id f => (s.entry id).cb.get f
  | .intSummary => s.intSummary

/-- The value `RegRead32` gives, R16 and R46: `ALL_ONES` when the device does not respond. -/
def State.regRead (s : State) (r : RegId) : U32 := if s.devAlive then s.regValue r else allOnes

/-- The state after a `RegRead32`: reading has no side effect (R75), the access is recorded. -/
def State.noteRead (s : State) (r : RegId) : State := s.emit (.regRead (s.regAddr r) (s.regRead r))

/-- A register write that reaches the device; `INT_SUMMARY` ignores it (R47). -/
def regStore (pipes : List PipeEntry) (v : U32) : RegId → List PipeEntry
  | .block id f => pipes.modify id fun e => e.put v f
  | .intSummary => pipes

/-- `RegWrite32`, R16: dropped when the device does not respond; the access is recorded. -/
def State.regWrite (s : State) (r : RegId) (v : U32) : State :=
  { s with
    pipes := if s.devAlive then regStore s.pipes v r else s.pipes
    trace := .regWrite (s.regAddr r) v :: s.trace }

/-! ### Ring memory (R14, R15) -/

/-- Whether every byte of `[a, a + n)` exists in device-bus space (R51 (2)). -/
def State.inSpace (s : State) (a n : Nat) : Bool := decide (a + n ≤ s.cfg.devAddrLimit)

/-- Whether descriptor `i` at `base` exists in device-bus space. -/
def State.slotInSpace (s : State) (base i : U32) : Bool := s.inSpace (descAddr base i) descSize

/-- `MemWrite(a, 4, v)`, R14. -/
def State.memWrite (s : State) (a : Nat) (v : U32) : State :=
  { s with mem := Memory.write4 s.mem a v, trace := .memWrite a v :: s.trace }

/-- The three field writes of a descriptor, in the order address, length, flags (R74). -/
def State.writeDesc (s : State) (base i addr : U32) (len : U16) (flags : U32) : State :=
  ((s.memWrite (addrWordAt base i) addr).memWrite (lenWordAt base i) (len.setWidth 32)).memWrite (flagsWordAt base i) flags

/-- `r.E[i].len <- 0` (R103). -/
def State.clearLen (s : State) (base i : U32) : State := s.memWrite (lenWordAt base i) 0#32

/-- Zero every byte of a ring's descriptor array (R192). -/
def State.zeroRing (s : State) (r : Ring) : State :=
  { s with mem := Memory.zero s.mem r.base.toNat r.bytes, trace := .memZero r.base.toNat r.bytes :: s.trace }

/-- `Barrier()`, R15 and R80: one operation is one atomic step (R87), so it is recorded and changes nothing (log 28). -/
def State.barrier (s : State) : State := s.emit .barrier

/-- `publish_src`, R145. -/
def State.publishSrc (s : State) (id : Nat) (r : SrcRing) : State := s.barrier.regWrite (.block id .srcWrIdx) r.wr

/-- `publish_dst`, R163. -/
def State.publishDst (s : State) (id : Nat) (r : Ring) : State := s.barrier.regWrite (.block id .dstWrIdx) r.wr

/-! ### Contexts (R27) -/

/-- `r.ctx[i]`; none is `empty`. -/
def Ring.context (r : Ring) (i : U32) : Option Nat := sparseGet r.ctx i.toNat

/-- `r.ctx[i] <- c`. -/
def Ring.setContext (r : Ring) (i : U32) (c : Nat) : Ring := { r with ctx := sparseSet r.ctx i.toNat c }

/-- `r.ctx[i] <- empty`. -/
def Ring.clearContext (r : Ring) (i : U32) : Ring := { r with ctx := sparseErase r.ctx i.toNat }

/-- A context as a result: `empty` is reported as zero (R109, D43). -/
def contextResult (c : Option Nat) : Nat := c.getD 0

/-- `r.wr <- increment(r.wr)`. -/
def Ring.advanceWr (r : Ring) : Ring := { r with wr := increment r.mask r.wr }

/-- `r.sw <- increment(r.sw)`. -/
def Ring.advanceSw (r : Ring) : Ring := { r with sw := increment r.mask r.sw }

/-! ### The lock and the return of a status -/

/-- What `enter(h, NL)` does at one moment (R210): it refuses, the port waits (R207), or the operation begins. -/
inductive Entered where
  | refused (r : Refusal)
  | waits
  | begins (s : State)
deriving DecidableEq, Repr

/-- `release(h)`, R208. -/
def State.release (s : State) : State := { s with lockOwner := none }

/-- `acquire(h)`, its assignment (R206). -/
def State.acquire (s : State) : State := { s with lockOwner := some s.port }

/-- `enter(h, NL)`, R210. -/
def State.enter (s : State) (nl : Bool) : Entered :=
  if nl then
    if s.lockOwner = some s.port then .begins s else .refused .nolockWithoutLock
  else if s.lockOwner = some s.port then .refused .relockByOwner
  else if s.lockOwner = none then .begins s.acquire
  else .waits

/-- `leave(h, NL)`, R210. -/
def State.leave (s : State) (nl : Bool) : State := if nl then s else s.release

/-- `return S`, R18: the status is in `x[0]`. -/
def State.returnStatus (s : State) (st : Status) : State := s.setCur { s.cur with x0 := statusCode st }

/-- `leave(h, NL); return S`. -/
def State.finish (s : State) (nl : Bool) (st : Status) : State := (s.leave nl).returnStatus st

/-- The operation waits for the lock: `busy[h]` stays set and the port makes no other step (R207, log 15). -/
def State.park (s : State) (i : Instr) : State := s.setCur { s.cur with waiting := some i }

/-- An operation with `enter` and `leave`: the order of checks of R238, steps 1 and 2. `i` is the operation itself, kept
when the port must wait; `legal` says that its operands are (R111); `body` starts with the lock held. -/
def State.locked (s : State) (i : Instr) (nl legal : Bool) (body : State → Outcome) : Outcome :=
  if i.wf s.nPipes && legal then
    match s.enter nl with
    | .refused r => .refused r
    | .waits => .next (s.park i)
    | .begins t => body t
  else .refused .illegalCommand

/-- `src_ring(id)`, R198. -/
def State.withSrc (s : State) (id : Nat) (k : SrcRing → Outcome) : Outcome :=
  if (s.pipe id).phase ≠ .active then .refused .pipeNotActive
  else match (s.pipe id).src with
    | none => .refused .noSourceRing
    | some r => k r

/-- `dst_ring(id)`, R198. -/
def State.withDst (s : State) (id : Nat) (k : Ring → Outcome) : Outcome :=
  if (s.pipe id).phase ≠ .active then .refused .pipeNotActive
  else match (s.pipe id).dst with
    | none => .refused .noDestinationRing
    | some r => k r

/-- An operation goes on only where descriptor `i` at `base` exists (log 21). -/
def State.withSlot (s : State) (base i : U32) (k : Outcome) : Outcome :=
  if s.slotInSpace base i then k else .fault .outsideDeviceSpace

end Sys2Proof.Machine
end

