-- ==== Sys2Proof/Machine/Operands.lean ====
section
/-! DEFINITION. The operand and result forms of the registers `x[1]` to `x[4]` (spec/30_encoding.md R109 to R111). -/

namespace Sys2Proof.Machine

/-- A 32-bit operand is legal when the register has no bit above 31 set (R109, R111). -/
def fits32 (x : Nat) : Bool := decide (x < 2 ^ 32)

/-- `x[i][31:0]`. -/
def low32 (x : Nat) : U32 := BitVec.ofNat 32 x

/-- A requested entry count is legal up to `2^31` (R111, D39). -/
def entryCountOk (x : Nat) : Bool := decide (x ≤ 2 ^ 31)

/-- The attribute word is legal when only bits 3:0 may be set (R110, R111). -/
def attrOk (x : Nat) : Bool := decide (x < 16)

/-- The attribute bits of `alloc_pipe`, R110. -/
def attrInterruptDisabled (x : Nat) : Bool := x.testBit 0
def attrReusesReceiveContext (x : Nat) : Bool := x.testBit 1
def attrHasSendCb (x : Nat) : Bool := x.testBit 2
def attrHasRecvCb (x : Nat) : Bool := x.testBit 3

/-- The operands of `send`: device buffer address and length are 32-bit (R109). -/
def sendOperandsOk (p : Port) : Bool := fits32 p.x2 && fits32 p.x3

/-- The operand of `rx_post_buf`: the device buffer address is 32-bit (R109). -/
def postOperandsOk (p : Port) : Bool := fits32 p.x2

/-- The operand of `rx_update_write_idx`: the count is 32-bit (R109). -/
def countOperandOk (p : Port) : Bool := fits32 p.x3

/-- The operands of `alloc_pipe` (R110, R111). -/
def allocOperandsOk (p : Port) : Bool :=
  fits32 p.x1 && fits32 p.x2 && fits32 p.x3 && entryCountOk p.x1 && entryCountOk p.x3 && attrOk p.x4

/-- The operands of `init_pipe`: four 32-bit watermarks (R110, R111; log 18). -/
def initOperandsOk (p : Port) : Bool := fits32 p.x1 && fits32 p.x2 && fits32 p.x3 && fits32 p.x4

/-- A 32-bit or narrower result is zero-extended to `CTX_W` bits, which are at least 32 (R109, R9): the same number. -/
def result {w : Nat} (v : BitVec w) : Nat := v.toNat

/-- `x[1] <- v`. -/
def State.setX1 (s : State) (v : Nat) : State := s.setCur { s.cur with x1 := v }
/-- `x[2] <- v`. -/
def State.setX2 (s : State) (v : Nat) : State := s.setCur { s.cur with x2 := v }
/-- `x[3] <- v`. -/
def State.setX3 (s : State) (v : Nat) : State := s.setCur { s.cur with x3 := v }
/-- `x[4] <- v`. -/
def State.setX4 (s : State) (v : Nat) : State := s.setCur { s.cur with x4 := v }

/-- A register write by software, R21. -/
def Port.put (p : Port) (i : Fin 5) (v : Nat) : Port :=
  match i with
  | 0 => { p with x0 := v }
  | 1 => { p with x1 := v }
  | 2 => { p with x2 := v }
  | 3 => { p with x3 := v }
  | 4 => { p with x4 := v }

end Sys2Proof.Machine
end

