-- ==== Sys2Proof/Machine/Device.lean ====
section
/-! DEFINITION. The device side of the handshake and the environment (spec/49_device_agent.md). A move that is not enabled
is no move: the state stays as it is (log 14). -/

namespace Sys2Proof.Machine

/-- Change the control block and the hidden state of pipe `id` from the device's side. -/
def State.deviceWrite (s : State) (id : Nat) (f : CtrlBlock → CtrlBlock) (g : DeviceState → DeviceState) : State :=
  s.updEntry id fun e => { e with cb := f e.cb, dev := g e.dev }

/-- `dev_src_complete(id)` is enabled: the source direction is configured and holds a published descriptor (R217). -/
def State.srcCompleteEnabled (s : State) (id : Nat) : Bool :=
  let cb := (s.entry id).cb
  decide (id < s.nPipes) && decide (cb.srcSize ≠ 0#32) && decide (cb.srcRdIdx ≠ cb.srcWrIdx)

/-- `dev_src_complete(id)`, R217: the descriptor is read, the completion index advances, a completion is pending. -/
def devSrcComplete (id : Nat) (s : State) : Outcome :=
  if s.srcCompleteEnabled id then
    let cb := (s.entry id).cb
    let i := cb.srcRdIdx
    if s.slotInSpace cb.srcBase i then
      .next ((s.emit (.devRead id (descAddr cb.srcBase i))).deviceWrite id
        (fun c => { c with srcRdIdx := increment (c.srcSize - 1#32) i }) (fun d => { d with ccPending := true }))
    else .fault .outsideDeviceSpace
  else .next s

/-- `dev_dst_write_len(id, L)` is enabled: the destination direction is configured, a posted slot is not yet filled, and
the length is not zero (R215 (d), R218). -/
def State.dstWriteLenEnabled (s : State) (id : Nat) (len : U16) : Bool :=
  let e := s.entry id
  decide (id < s.nPipes) && decide (e.cb.dstSize ≠ 0#32) && decide (e.dev.dstLenIdx ≠ e.cb.dstWrIdx) && decide (len ≠ 0#16)

/-- The bytes `dev_dst_write_len` stores: the length word, and the flags word where the device writes it (R218). `upper`
are bits 31:16 of the length word: zero in R218, any value in U11 (log 22). -/
def State.deviceFill (s : State) (base i : U32) (len upper : U16) (flags : Option U32) : State :=
  let m := Memory.write4 s.mem (lenWordAt base i) (upper ++ len)
  { s with mem := match flags with
    | none => m
    | some f => Memory.write4 m (flagsWordAt base i) f }

/-- `dev_dst_write_len(id, L)`, R218. -/
def devDstWriteLen (id : Nat) (len upper : U16) (flags : Option U32) (s : State) : Outcome :=
  if s.dstWriteLenEnabled id len then
    let e := s.entry id
    let i := e.dev.dstLenIdx
    if s.slotInSpace e.cb.dstBase i then
      .next (((s.emit (.devRead id (addrWordAt e.cb.dstBase i))).deviceFill
          e.cb.dstBase i len upper flags).deviceWrite id
        (fun c => c) (fun d => { d with dstLenIdx := increment (e.cb.dstSize - 1#32) i }))
    else .fault .outsideDeviceSpace
  else .next s

/-- `dev_dst_advance(id)` is enabled (R219). -/
def State.dstAdvanceEnabled (s : State) (id : Nat) : Bool :=
  let cb := (s.entry id).cb
  decide (id < s.nPipes) && decide (cb.dstSize ≠ 0#32) && decide (cb.dstRdIdx ≠ cb.dstWrIdx)

/-- `dev_dst_advance(id)`, R219. -/
def devDstAdvance (id : Nat) (s : State) : Outcome :=
  if s.dstAdvanceEnabled id then
    .next (s.deviceWrite id (fun c => { c with dstRdIdx := increment (c.dstSize - 1#32) c.dstRdIdx })
      (fun d => { d with ccPending := true }))
  else .next s

/-- `dev_raise_cc(id)`, R221: enabled when a completion is pending. -/
def devRaiseCc (id : Nat) (s : State) : Outcome :=
  if (s.entry id).dev.ccPending then
    .next (s.deviceWrite id (fun c => { c with intStatus := c.intStatus ||| s.cfg.ccMask })
      (fun d => { d with ccPending := false }))
  else .next s

/-- `dev_raise_other(id, m)`, R222: any `m` within the watermark and error groups. -/
def devRaiseOther (id : Nat) (m : U32) (s : State) : Outcome :=
  if m &&& ~~~(s.cfg.wmMask ||| s.cfg.errMask) = 0#32 then
    .next (s.deviceWrite id (fun c => { c with intStatus := c.intStatus ||| m }) (fun d => d))
  else .next s

/-- `env_device_dies`, R223: nothing revives the device. -/
def envDeviceDies (s : State) : Outcome := .next { s with devAlive := false }

end Sys2Proof.Machine
end

