-- ==== Sys2Proof/Machine/Interrupt.lean ====
section
/-! DEFINITION. Interrupt service and interrupt enables: `service_pipe`, `service_any_pending`, `enable_interrupts`,
`disable_interrupts` (spec/45_interrupt_service.md), and the stages a service operation goes through (R180, R183). -/

namespace Sys2Proof.Machine

/-! ### Service entry, callbacks and return -/

/-- Write `svc[h]` of the running port. -/
def State.setSvc (s : State) (v : Option Svc) : State := s.setCur { s.cur with svc := v }

/-- Phase A of `service_pipe(id)`, one atomic step with the lock free: the copy-complete status is cleared (R180). While
another port holds the lock the phase is still to come (R207). -/
def State.phaseA (s : State) (id : Nat) (enclosed : Bool) (rem : U32) : State :=
  if s.lockOwner = none then
    (s.regWrite (.block id .intStatus) s.cfg.ccMask).setSvc (some ⟨.beforeRecv id, enclosed, rem⟩)
  else s.setSvc (some ⟨.phaseA id, enclosed, rem⟩)

/-- The end of a service operation: `svc[h] <- none; return Ok` (R180, R183). -/
def State.serviceDone (s : State) : State := (s.setSvc none).returnStatus .ok

/-- Phase C, with the lock free: the watermark status is cleared; then the operation ends, or `service_any_pending` goes on
with its remaining bits (R180). -/
def State.phaseC (s : State) (id : Nat) (enclosed : Bool) (rem : U32) : State :=
  let t := s.regWrite (.block id .intStatus) s.cfg.wmMask
  if enclosed then t.setSvc (some ⟨.scan, true, rem⟩) else t.serviceDone

/-- A pipe has a receive callback to invoke: an Unallocated pipe has none (R180, R181). -/
def Pipe.recvCallback (p : Pipe) : Bool := decide (p.phase ≠ .unallocated) && p.hasRecvCb

/-- A pipe has a send callback to invoke (R180, R181). -/
def Pipe.sendCallback (p : Pipe) : Bool := decide (p.phase ≠ .unallocated) && p.hasSendCb

/-- The pipe `service_any_pending` takes next: the lowest set bit below `N_PIPES` (R183). -/
def State.nextPending (s : State) (rem : U32) : Option Nat := (List.range s.nPipes).find? fun i => rem.getLsbD i

/-- One stage of a service operation on the running port (R180, R183; log 16). Inside a callback the port waits for its
return; a phase that needs the lock waits while another port holds it. -/
def State.serviceStage (s : State) (v : Svc) : Outcome :=
  match v.stage with
  | .scan =>
    match s.nextPending v.remaining with
    | none => .next s.serviceDone
    | some id => .next (s.phaseA id true (v.remaining &&& ~~~(1#32 <<< id)))
  | .phaseA id =>
    if s.lockOwner = some s.port then .refused .relockByOwner
    else .next (s.phaseA id v.enclosed v.remaining)
  | .beforeRecv id =>
    if (s.pipe id).recvCallback then
      .next ((s.emit (.notifyRecv s.port id)).setSvc (some { v with stage := .inRecv id }))
    else .next (s.setSvc (some { v with stage := .beforeSend id }))
  | .inRecv _ => .next s
  | .beforeSend id =>
    if (s.pipe id).sendCallback then
      .next ((s.emit (.notifySend s.port id)).setSvc (some { v with stage := .inSend id }))
    else .next (s.setSvc (some { v with stage := .phaseC id }))
  | .inSend _ => .next s
  | .phaseC id =>
    if s.lockOwner = some s.port then .refused .relockByOwner
    else if s.lockOwner = none then .next (s.phaseC id v.enclosed v.remaining)
    else .next s

/-- A callback's return (R181): the block goes on; a callback that returns with the lock held is refused (R277, U8). -/
def State.callbackDone (s : State) (v : Svc) : Outcome :=
  match v.stage with
  | .inRecv id =>
    if s.lockOwner = some s.port then .refused .relockByOwner
    else .next (s.setSvc (some { v with stage := .beforeSend id }))
  | .inSend id =>
    if s.lockOwner = some s.port then .refused .relockByOwner
    else .next (s.setSvc (some { v with stage := .phaseC id }))
  | _ => .next s

/-- What both service operations check first: no relock (R211 (b)), no nesting (R182); log 17. -/
def State.serviceEntry (s : State) (k : Outcome) : Outcome :=
  if s.lockOwner = some s.port then .refused .relockByOwner
  else if s.cur.svc.isSome then .refused .nestedService
  else k

/-- `service_pipe`, R180: entry and phase A; the later stages are `State.serviceStage`. -/
def execServicePipe (pipe : PipeField) (s : State) : Outcome :=
  if (Instr.servicePipe pipe).wf s.nPipes then s.serviceEntry (.next (s.phaseA pipe.toNat false 0#32))
  else .refused .illegalCommand

/-- `s[N_PIPES-1:0]` (R183). -/
def State.pipeBits (s : State) (v : U32) : U32 := v &&& (1#32 <<< s.nPipes - 1#32)

/-- `service_any_pending`, R183: the summary is read once, without the lock; the later stages are `State.serviceStage`. -/
def execServiceAnyPending (s : State) : Outcome :=
  s.serviceEntry (.next ((s.noteRead .intSummary).setSvc
    (some ⟨.scan, true, s.pipeBits (s.regRead .intSummary)⟩)))

/-! ### Interrupt enables -/

/-- `cc_wanted`, R185. -/
def Pipe.ccWanted (p : Pipe) : Bool :=
  decide (p.phase ≠ .unallocated) && (p.hasSendCb || p.hasRecvCb) && !p.interruptDisabled

/-- What `enable_interrupts` writes to a pipe's `INT_ENABLE` (R186). -/
def State.enableValue (s : State) (id : Nat) : U32 := if (s.pipe id).ccWanted then s.cfg.ccMask else 0#32

/-- The loop over the pipes from `id` up, `k` of them: each `INT_ENABLE` is written whole. -/
def State.writeEnables (value : Nat → U32) : Nat → Nat → State → State
  | 0, _, s => s
  | k + 1, id, s => State.writeEnables value k (id + 1) (s.regWrite (.block id .intEnable) (value id))

/-- `enable_interrupts`, R186. -/
def execEnableInterrupts (nl : Bool) (s : State) : Outcome :=
  s.locked (.enableInterrupts nl) nl true fun s =>
    .next ((State.writeEnables s.enableValue s.nPipes 0 s).finish nl .ok)

/-- `disable_interrupts`, R187. -/
def execDisableInterrupts (nl : Bool) (s : State) : Outcome :=
  s.locked (.disableInterrupts nl) nl true fun s =>
    .next ((State.writeEnables (fun _ => 0#32) s.nPipes 0 s).finish nl .ok)

end Sys2Proof.Machine
end

