-- ==== Sys2Proof/Machine/Lifecycle.lean ====
section
/-! DEFINITION. The allocation lifecycle: `alloc_pipe`, `init_pipe`, `deinit_pipe`, `free_pipe`
(spec/46_lifecycle.md). -/

namespace Sys2Proof.Machine

/-! ### The allocator (R17) -/

/-- A region of device-bus space: its base and its length in bytes. -/
abbrev Region := Nat × Nat

/-- Two regions share no byte. -/
def disjointRegions (a b : Region) : Bool := decide (a.1 + a.2 ≤ b.1 ∨ b.1 + b.2 ≤ a.1)

/-- The region of a ring, R77. -/
def Ring.region (r : Ring) : Region := (r.base.toNat, r.bytes)

/-- The regions of a pipe's rings. -/
def Pipe.regions (p : Pipe) : List Region :=
  (p.src.map fun r => r.toRing.region).toList ++ (p.dst.map Ring.region).toList

/-- The regions of every ring of the Engine. -/
def State.regions (s : State) : List Region := s.pipes.flatMap fun e => e.pipe.regions

/-- The next answer of the allocator: the next listed one, else a free value (log 10). -/
def State.nextAnswer (s : State) : AllocAnswer × State :=
  match s.allocs with
  | a :: rest => (a, { s with allocs := rest })
  | [] => (Config.freeAnswer s.draws, { s with draws := s.draws + 1 })

/-- A region the allocator gave for a ring of `cap` descriptors. -/
structure NewRegion where
  cap : Nat
  va : Nat
  da : U32
  contents : List (Nat × Byte)
deriving DecidableEq, Repr

/-- Bytes of a new region: `cap * DESC_SIZE` (R191). -/
def NewRegion.bytes (g : NewRegion) : Nat := g.cap * descSize

/-- The region as base and length. -/
def NewRegion.region (g : NewRegion) : Region := (g.da.toNat, g.bytes)

/-- What allocating one side of a pipe ends in (R190, R191). A side that is not asked for is got, with no region. -/
inductive Side where
  | contractBroken
  | failed (s : State)
  | got (s : State) (region : Option NewRegion)
deriving DecidableEq, Repr

/-- `alloc_ring` as far as the region goes, R191. `taken` are the regions in use: an answer that is misaligned (R72) or not
distinct from them (R77, R17) breaks the allocator's contract (log 11). -/
def State.obtainRegion (s : State) (cap : Nat) (taken : List Region) : Side :=
  let size := cap * descSize
  let (answer, t) := (s.emit (.dmaAlloc size)).nextAnswer
  match answer with
  | .fail => .failed t
  | .region va da contents =>
    if da.toNat % s.cfg.ringAlign ≠ 0 ∨ taken.any (fun g => !disjointRegions (da.toNat, size) g) then .contractBroken
    else if s.cfg.devAddrLimit < da.toNat + size then .failed (t.emit (.dmaRelease da size))
    else .got t (some ⟨cap, va, da, contents⟩)

/-- One side of `alloc_pipe`: nothing for a request of 0 entries, else a region for the rounded-up count (R190, R10). -/
def State.allocSide (s : State) (n : Nat) (taken : List Region) : Side :=
  if n = 0 then .got s none else s.obtainRegion (roundupPow2 n) taken

/-- A fresh ring, R191: no contexts; the index values are unspecified (R56), so they are free values, masked as R28 has
every index (log 9). -/
def freshRing (g : NewRegion) (draw : Nat) : Ring :=
  let c := BitVec.ofNat 32 g.cap
  { cap := c, base := g.da, owner := g.va, sw := Config.freeIndex draw &&& (c - 1#32),
    wr := Config.freeIndex (draw + 1) &&& (c - 1#32), ctx := [] }

/-- A fresh source ring: also a free `hw_index` (R56, log 9). -/
def freshSrcRing (g : NewRegion) (draw : Nat) : SrcRing :=
  { freshRing g draw with hw := Config.freeIndex (draw + 2) &&& (BitVec.ofNat 32 g.cap - 1#32) }

/-- The bytes of a new region are those the allocator returned (R191). -/
def State.installRegion (s : State) (g : Option NewRegion) : State :=
  match g with
  | none => s
  | some g => { s with mem := Memory.install s.mem g.da.toNat g.bytes g.contents }

/-- `DmaRelease` of the source region when the destination ring could not be had (R196). -/
def State.releaseNew (s : State) (g : Option NewRegion) : State :=
  match g with
  | none => s
  | some g => s.emit (.dmaRelease g.da g.bytes)

/-- The pipe `alloc_pipe` makes: rings, attributes, phase `Allocated` (R190). -/
def allocatedPipe (p : Port) (src : Option SrcRing) (dst : Option Ring) : Pipe where
  phase := .allocated
  src := src
  dst := dst
  maxSendSize := low32 p.x2
  interruptDisabled := attrInterruptDisabled p.x4
  reusesReceiveContext := attrReusesReceiveContext p.x4
  hasSendCb := attrHasSendCb p.x4
  hasRecvCb := attrHasRecvCb p.x4

/-- The end of a successful `alloc_pipe`; the five index values of the new rings are drawn here. -/
def State.createPipe (s : State) (id : Nat) (src dst : Option NewRegion) : State :=
  let t := ((s.installRegion src).installRegion dst).setPipe id
    (allocatedPipe s.cur (src.map fun g => freshSrcRing g s.draws) (dst.map fun g => freshRing g (s.draws + 3)))
  { t with draws := s.draws + 5 }

/-- `alloc_pipe`, R190, R191, R196. -/
def execAllocPipe (nl : Bool) (pipe : PipeField) (s : State) : Outcome :=
  s.locked (.allocPipe nl pipe) nl (allocOperandsOk s.cur) fun s =>
    if (s.pipe pipe.toNat).phase ≠ .unallocated then .refused .pipeAlreadyAllocated
    else if s.isDiag pipe.toNat && !attrInterruptDisabled s.cur.x4 then .refused .diagPipeNeedsIntDis
    else
      match s.allocSide (low32 s.cur.x1).toNat s.regions with
      | .contractBroken => .refused .allocatorContract
      | .failed t => .next (t.finish nl .outOfMemory)
      | .got t src =>
        match t.allocSide (low32 s.cur.x3).toNat ((src.map NewRegion.region).toList ++ s.regions) with
        | .contractBroken => .refused .allocatorContract
        | .failed u => .next ((u.releaseNew src).finish nl .outOfMemory)
        | .got u dst => .next ((u.createPipe pipe.toNat src dst).finish nl .ok)

/-! ### Initialisation and teardown -/

/-- The source half of `init_pipe`, R192, R193. -/
def State.initSrc (s : State) (id : Nat) (r : SrcRing) : State :=
  let rd := s.regRead (.block id .srcRdIdx) &&& r.mask
  let wr := s.regRead (.block id .srcWrIdx) &&& r.mask
  let t := ((s.zeroRing r.toRing).noteRead (.block id .srcRdIdx)).noteRead (.block id .srcWrIdx)
  let u := t.setSrc id { r with sw := rd, wr := wr, hw := rd }
  (((u.regWrite (.block id .srcBase) r.base).regWrite (.block id .srcSize) r.cap).regWrite
    (.block id .srcWmLow) (low32 s.cur.x1)).regWrite (.block id .srcWmHigh) (low32 s.cur.x2)

/-- The destination half of `init_pipe`, R192, R193. -/
def State.initDst (s : State) (id : Nat) (r : Ring) : State :=
  let rd := s.regRead (.block id .dstRdIdx) &&& r.mask
  let wr := s.regRead (.block id .dstWrIdx) &&& r.mask
  let t := ((s.zeroRing r).noteRead (.block id .dstRdIdx)).noteRead (.block id .dstWrIdx)
  let u := t.setDst id { r with sw := rd, wr := wr }
  (((u.regWrite (.block id .dstBase) r.base).regWrite (.block id .dstSize) r.cap).regWrite
    (.block id .dstWmLow) (low32 s.cur.x3)).regWrite (.block id .dstWmHigh) (low32 s.cur.x4)

/-- The source half, where the pipe has a source ring. -/
def State.initSrcIf (s : State) (id : Nat) : State :=
  match (s.pipe id).src with
  | none => s
  | some r => s.initSrc id r

/-- The destination half, where the pipe has a destination ring. -/
def State.initDstIf (s : State) (id : Nat) : State :=
  match (s.pipe id).dst with
  | none => s
  | some r => s.initDst id r

/-- Change the phase of a pipe (R31). -/
def State.setPhase (s : State) (id : Nat) (ph : Phase) : State := s.setPipe id { s.pipe id with phase := ph }

/-- Whether every ring of a pipe lies in device-bus space (log 21). -/
def State.ringsInSpace (s : State) (p : Pipe) : Bool := p.regions.all fun g => s.inSpace g.1 g.2

/-- `init_pipe`, R192, R193, R197. -/
def execInitPipe (nl : Bool) (pipe : PipeField) (s : State) : Outcome :=
  s.locked (.initPipe nl pipe) nl (initOperandsOk s.cur) fun s =>
    if (s.pipe pipe.toNat).phase = .unallocated then .refused .pipeNotAllocated
    else if s.ringsInSpace (s.pipe pipe.toNat) then
      .next ((((s.initSrcIf pipe.toNat).initDstIf pipe.toNat).setPhase pipe.toNat .active).finish nl .ok)
    else .fault .outsideDeviceSpace

/-- `deinit_pipe` on one side: base and size registers are zeroed where there is a ring (R194). -/
def State.deinitSrcIf (s : State) (id : Nat) : State :=
  if (s.pipe id).src.isSome then (s.regWrite (.block id .srcBase) 0#32).regWrite (.block id .srcSize) 0#32 else s

/-- `deinit_pipe` on the destination side (R194). -/
def State.deinitDstIf (s : State) (id : Nat) : State :=
  if (s.pipe id).dst.isSome then (s.regWrite (.block id .dstBase) 0#32).regWrite (.block id .dstSize) 0#32 else s

/-- `deinit_pipe`, R194. -/
def execDeinitPipe (nl : Bool) (pipe : PipeField) (s : State) : Outcome :=
  s.locked (.deinitPipe nl pipe) nl true fun s =>
    if (s.pipe pipe.toNat).phase ≠ .active then .refused .pipeNotActive
    else .next ((((s.deinitSrcIf pipe.toNat).deinitDstIf pipe.toNat).setPhase pipe.toNat .allocated).finish nl .ok)

/-- `DmaRelease` of a ring's region (R195). -/
def State.releaseRing (s : State) (ring : Option Ring) : State :=
  match ring with
  | none => s
  | some r => s.emit (.dmaRelease r.base r.bytes)

/-- `free_pipe`, R195: the rings and their contexts go, no register is written. -/
def execFreePipe (nl : Bool) (pipe : PipeField) (s : State) : Outcome :=
  s.locked (.freePipe nl pipe) nl true fun s =>
    if (s.pipe pipe.toNat).phase ≠ .allocated then .refused .pipeNotDeinitialised
    else
      let p := s.pipe pipe.toNat
      let t := (s.releaseRing (p.src.map SrcRing.toRing)).releaseRing p.dst
      .next ((t.setPipe pipe.toNat { p with phase := .unallocated, src := none, dst := none }).finish nl .ok)

end Sys2Proof.Machine
end

