-- ==== Sys2Proof/Machine/Lock.lean ====
section
/-! DEFINITION. `lock` and `unlock` (spec/48_lock.md). -/

namespace Sys2Proof.Machine

/-- `lock`, R206; it waits while another port holds the lock (R207). -/
def execLock (s : State) : Outcome :=
  if s.lockOwner = some s.port then .refused .relockByOwner
  else if s.lockOwner = none then .next (s.acquire.returnStatus .ok)
  else .next (s.park .lock)

/-- `unlock`, R208. -/
def execUnlock (s : State) : Outcome :=
  if s.lockOwner = some s.port then .next (s.release.returnStatus .ok)
  else .refused .unlockByNonOwner

end Sys2Proof.Machine
end

