-- ==== Sys2Proof/Machine/RecvCompletion.lean ====
section
/-! DEFINITION. Receive completion retrieval: `completed_recv_next`, `revoke_recv_next`
(spec/44_receive_completion.md). -/

namespace Sys2Proof.Machine

/-- Free the slot at `sw_index` of a destination ring: its length is cleared, its context too unless it is kept (R171),
and `sw_index` advances. -/
def State.freeDstSlot (s : State) (id : Nat) (r : Ring) (keepContext : Bool) : State :=
  (s.clearLen r.base r.sw).setDst id (if keepContext then r.advanceSw else (r.clearContext r.sw).advanceSw)

/-- `completed_recv_next`, R170 to R172. -/
def execCompletedRecvNext (nl : Bool) (pipe : PipeField) (s : State) : Outcome :=
  s.locked (.completedRecvNext nl pipe) nl true fun s =>
    s.withDst pipe.toNat fun r =>
      s.withSlot r.base r.sw
        (let n := Memory.descLen s.mem r.base r.sw
         if n = 0#16 then .next (s.finish nl .notReady)
         else .next ((((s.freeDstSlot pipe.toNat r (s.pipe pipe.toNat).reusesReceiveContext).setX1
           (contextResult (r.context r.sw))).setX3 (result n)).finish nl .ok))

/-- `revoke_recv_next`, R173, R174: the context is cleared on every pipe. -/
def execRevokeRecvNext (nl : Bool) (pipe : PipeField) (s : State) : Outcome :=
  s.locked (.revokeRecvNext nl pipe) nl true fun s =>
    s.withDst pipe.toNat fun r =>
      if r.wr = r.sw then .next (s.finish nl .noData)
      else s.withSlot r.base r.sw
        (.next ((((s.freeDstSlot pipe.toNat r false).setX1 (contextResult (r.context r.sw))).setX2
          (result (Memory.descAddrWord s.mem r.base r.sw))).finish nl .ok))

end Sys2Proof.Machine
end

