-- ==== Sys2Proof/Machine/RecvPost.lean ====
section
/-! DEFINITION. Receive posting: `available_recv_slots`, `rx_post_buf`, `rx_update_write_idx`
(spec/43_receive_post.md). -/

namespace Sys2Proof.Machine

/-- `available_recv_slots`, R160. -/
def execAvailableRecvSlots (nl : Bool) (pipe : PipeField) (s : State) : Outcome :=
  s.locked (.availableRecvSlots nl pipe) nl true fun s =>
    s.withDst pipe.toNat fun r =>
      .next ((s.setX3 (result (availableSlots r.mask r.wr r.sw))).finish nl .ok)

/-- The post of a buffer: descriptor, context, write index, publication (R161, R163). -/
def State.postBuffer (s : State) (id : Nat) (r : Ring) : State :=
  let w := r.wr
  let r' := (r.setContext w s.cur.x1).advanceWr
  ((s.writeDesc r.base w (low32 s.cur.x2) 0#16 0#32).setDst id r').publishDst id r'

/-- `rx_post_buf`, R161; the pipe that reuses contexts skips the capacity test (R162). -/
def execRxPostBuf (nl : Bool) (pipe : PipeField) (s : State) : Outcome :=
  s.locked (.rxPostBuf nl pipe) nl (postOperandsOk s.cur) fun s =>
    s.withDst pipe.toNat fun r =>
      if availableSlots r.mask r.wr r.sw = 0#32 ∧ (s.pipe pipe.toNat).reusesReceiveContext = false then
        .next (s.finish nl .outOfSpace)
      else s.withSlot r.base r.wr (.next ((s.postBuffer pipe.toNat r).finish nl .ok))

/-- The guarded advance of `rx_update_write_idx`: one less where the full advance would meet `sw_index` (R164). -/
def guardedAdvance (r : Ring) (n : U32) : U32 :=
  if addIndex r.mask r.wr n = r.sw then n - 1#32 else n

/-- `rx_update_write_idx`, R164, R165. -/
def execRxUpdateWriteIdx (nl : Bool) (pipe : PipeField) (s : State) : Outcome :=
  s.locked (.rxUpdateWriteIdx nl pipe) nl (countOperandOk s.cur) fun s =>
    s.withDst pipe.toNat fun r =>
      let n := low32 s.cur.x3
      if n = 0#32 then .refused .zeroAdvance
      else
        let r' : Ring := { r with wr := addIndex r.mask r.wr (guardedAdvance r n) }
        .next (((s.setDst pipe.toNat r').publishDst pipe.toNat r').finish nl .ok)

end Sys2Proof.Machine
end

