-- ==== Sys2Proof/Machine/Send.lean ====
section
/-! DEFINITION. The send path: `available_send_slots`, `send`, `revert_last_gather` (spec/41_send_path.md). -/

namespace Sys2Proof.Machine

/-- `available_send_slots`, R140. -/
def execAvailableSendSlots (nl : Bool) (pipe : PipeField) (s : State) : Outcome :=
  s.locked (.availableSendSlots nl pipe) nl true fun s =>
    s.withSrc pipe.toNat fun r =>
      .next ((s.setX3 (result (availableSlots r.mask r.wr r.sw))).finish nl .ok)

/-- The enqueue of `send` on a ring that has a free slot: descriptor, context, write index, and the publication unless
gather is requested (R141, R144, R145). -/
def State.enqueueSend (s : State) (id : Nat) (r : SrcRing) (g bs : Bool) (tid : TidField) : State :=
  let w := r.wr
  let r' : SrcRing := { r with toRing := (r.toRing.setContext w s.cur.x1).advanceWr }
  let t := (s.writeDesc r.base w (low32 s.cur.x2) (BitVec.ofNat 16 s.cur.x3) (flagsWord tid bs g)).setSrc id r'
  if g then t else t.publishSrc id r'

/-- The warning of an oversized `send`, R143: emitted before the capacity test. -/
def State.warnOversized (s : State) (id : Nat) : State :=
  if (s.pipe id).maxSendSize.toNat < s.cur.x3 then s.warn .oversizedSend id else s

/-- `send`, R141 to R146. -/
def execSend (nl : Bool) (pipe : PipeField) (g bs : Bool) (tid : TidField) (s : State) : Outcome :=
  s.locked (.send nl pipe g bs tid) nl (sendOperandsOk s.cur) fun s =>
    s.withSrc pipe.toNat fun r =>
      if 2 ^ 16 ≤ s.cur.x3 then .refused .lengthTooWide
      else if availableSlots r.mask r.wr r.sw = 0#32 then
        .next ((s.warnOversized pipe.toNat).finish nl .outOfResources)
      else s.withSlot r.base r.wr
        (.next (((s.warnOversized pipe.toNat).enqueueSend pipe.toNat r g bs tid).finish nl .ok))

/-- There is an enqueue to take back: the write index differs from `sw_index` and from the published write index as read
from the register (R147). -/
def State.canRevert (s : State) (id : Nat) (r : SrcRing) : Bool :=
  decide (r.wr ≠ r.sw) && decide (r.wr ≠ s.regRead (.block id .srcWrIdx) &&& r.mask)

/-- The ring after one enqueue is taken back: the write index back by one and that slot's context empty (R147). -/
def SrcRing.reverted (r : SrcRing) : SrcRing :=
  let w := decrement r.mask r.wr
  { r with toRing := { r.toRing with wr := w }.clearContext w }

/-- `revert_last_gather`, R147, R148. -/
def execRevertLastGather (nl : Bool) (pipe : PipeField) (s : State) : Outcome :=
  s.locked (.revertLastGather nl pipe) nl true fun s =>
    s.withSrc pipe.toNat fun r =>
      let t := s.noteRead (.block pipe.toNat .srcWrIdx)
      if s.canRevert pipe.toNat r then .next ((t.setSrc pipe.toNat r.reverted).finish nl .ok)
      else .next ((t.warn .nothingToRevert pipe.toNat).finish nl .ok)

end Sys2Proof.Machine
end

