-- ==== Sys2Proof/Machine/SendCompletion.lean ====
section
/-! DEFINITION. Send completion retrieval: `completed_send_next`, `cancel_send_next` and the completion-pointer
synchronizer (spec/42_send_completion.md). -/

namespace Sys2Proof.Machine

/-- What the lazy refresh leaves: the state with the register access recorded and the ring with its cached index
refreshed, or none for `Unsupported` (R150, R151). -/
inductive Refreshed where
  | unsupported (s : State)
  | ready (s : State) (r : SrcRing)
deriving DecidableEq, Repr

/-- `sync_completion`, R151: the all-ones test is on the raw value, the cache gets the masked one. -/
def State.syncCompletion (s : State) (id : Nat) (r : SrcRing) : Refreshed :=
  let v := s.regRead (.block id .srcRdIdx)
  let t := s.noteRead (.block id .srcRdIdx)
  if v = allOnes then .unsupported t
  else
    let r' : SrcRing := { r with hw := v &&& r.mask }
    .ready (t.setSrc id r') r'

/-- The register is read only when the cache says that nothing is pending (R150, R151). -/
def State.lazyRefresh (s : State) (id : Nat) (r : SrcRing) : Refreshed :=
  if r.hw = r.sw then s.syncCompletion id r else .ready s r

/-- Free the slot at `sw_index` of a source ring: its context and its length are cleared and `sw_index` advances. -/
def State.freeSrcSlot (s : State) (id : Nat) (r : SrcRing) : State :=
  (s.clearLen r.base r.sw).setSrc id { r with toRing := (r.toRing.clearContext r.sw).advanceSw }

/-- `completed_send_next`, R150 to R152. -/
def execCompletedSendNext (nl : Bool) (pipe : PipeField) (s : State) : Outcome :=
  s.locked (.completedSendNext nl pipe) nl true fun s =>
    s.withSrc pipe.toNat fun r =>
      match s.lazyRefresh pipe.toNat r with
      | .unsupported t => .next (t.finish nl .unsupported)
      | .ready t r' =>
        if r'.hw = r'.sw then .next (t.finish nl .notReady)
        else t.withSlot r'.base r'.sw
          (.next (((t.freeSrcSlot pipe.toNat r').setX1 (contextResult (r'.toRing.context r'.sw))).finish nl .ok))

/-- The four results of `cancel_send_next`, read from the slot at `sw_index` (R153). -/
def State.setDrained (s : State) (r : SrcRing) (m : Memory) : State :=
  (((s.setX1 (contextResult (r.toRing.context r.sw))).setX2 (result (Memory.descAddrWord m r.base r.sw))).setX3
    (result (Memory.descLen m r.base r.sw))).setX4 (result (flagsTid (Memory.descFlags m r.base r.sw)))

/-- `cancel_send_next`, R153, R154. -/
def execCancelSendNext (nl : Bool) (pipe : PipeField) (s : State) : Outcome :=
  s.locked (.cancelSendNext nl pipe) nl true fun s =>
    s.withSrc pipe.toNat fun r =>
      if r.wr = r.sw then .next (s.finish nl .noData)
      else s.withSlot r.base r.sw
        (.next (((s.freeSrcSlot pipe.toNat r).setDrained r s.mem).finish nl .ok))

end Sys2Proof.Machine
end

