-- ==== Sys2Proof/Machine/Dispatch.lean ====
section
/-! DEFINITION. The meaning of every operation, executed for the port `s.port` (spec/30_encoding.md R108). -/

namespace Sys2Proof.Machine

/-- One operation of the running port. -/
def exec (i : Instr) (s : State) : Host.Outcome State Fault Refusal :=
  match i with
  | .lock => Sys2Proof.Machine.execLock s
  | .unlock => Sys2Proof.Machine.execUnlock s
  | .send nl pipe g bs tid => Sys2Proof.Machine.execSend nl pipe g bs tid s
  | .revertLastGather nl pipe => Sys2Proof.Machine.execRevertLastGather nl pipe s
  | .completedSendNext nl pipe => Sys2Proof.Machine.execCompletedSendNext nl pipe s
  | .cancelSendNext nl pipe => Sys2Proof.Machine.execCancelSendNext nl pipe s
  | .availableSendSlots nl pipe => Sys2Proof.Machine.execAvailableSendSlots nl pipe s
  | .rxPostBuf nl pipe => Sys2Proof.Machine.execRxPostBuf nl pipe s
  | .rxUpdateWriteIdx nl pipe => Sys2Proof.Machine.execRxUpdateWriteIdx nl pipe s
  | .completedRecvNext nl pipe => Sys2Proof.Machine.execCompletedRecvNext nl pipe s
  | .revokeRecvNext nl pipe => Sys2Proof.Machine.execRevokeRecvNext nl pipe s
  | .availableRecvSlots nl pipe => Sys2Proof.Machine.execAvailableRecvSlots nl pipe s
  | .allocPipe nl pipe => Sys2Proof.Machine.execAllocPipe nl pipe s
  | .initPipe nl pipe => Sys2Proof.Machine.execInitPipe nl pipe s
  | .deinitPipe nl pipe => Sys2Proof.Machine.execDeinitPipe nl pipe s
  | .freePipe nl pipe => Sys2Proof.Machine.execFreePipe nl pipe s
  | .servicePipe pipe => Sys2Proof.Machine.execServicePipe pipe s
  | .serviceAnyPending => Sys2Proof.Machine.execServiceAnyPending s
  | .enableInterrupts nl => Sys2Proof.Machine.execEnableInterrupts nl s
  | .disableInterrupts nl => Sys2Proof.Machine.execDisableInterrupts nl s

end Sys2Proof.Machine
end

