-- ==== Sys2Proof/Machine/Agents.lean ====
section
/-! DEFINITION. The moves of the agents (spec/10_state.md R20 to R24, spec/30_encoding.md R104, spec/48_lock.md R207,
log 1): what one entry of the input list does. -/

namespace Sys2Proof.Machine

/-- The port runs a callback, the only time its command register accepts a word while `busy[h]` is set (R104, R182). -/
def Svc.inCallback (v : Svc) : Bool :=
  match v.stage with
  | .inRecv _ => true
  | .inSend _ => true
  | _ => false

/-- `busy[h]`, R24: an operation waits for the lock or a service operation is in progress. -/
def Port.busy (p : Port) : Bool := p.waiting.isSome || p.svc.isSome

/-- Software behind the port may write registers and issue an operation: the port is not busy, or it runs a callback and no
operation of that callback waits (R21, R104, R182). -/
def Port.accepts (p : Port) : Bool :=
  decide (p.waiting = none) && (match p.svc with
    | none => true
    | some v => v.inCallback)

/-- The state with port `h` as the one that runs. -/
def State.onPort (s : State) (h : Nat) : State := { s with port := h }

/-- The operation a command word stands for, executed for the running port; an illegal word is refused (R111). -/
def runWord (w : U32) (s : State) : Outcome :=
  match decode w with
  | .ok i => exec i s
  | .illegal _ => .refused .illegalCommand

/-- A write to `CMD[h]`, R104; ignored where the port does not accept one (log 25). -/
def acceptCommand (h : Nat) (w : U32) (s : State) : Outcome :=
  if h < s.nHosts ∧ (s.portAt h).accepts then runWord w (s.onPort h) else .next s

/-- What a port register keeps of a value: its low `CTX_W` bits (R21; log 3). -/
def State.inWidth (s : State) (v : Nat) : Nat := v % 2 ^ s.cfg.ctxW

/-- A write of `x[h][i]` by software, R21; ignored where the port does not accept one (log 25). -/
def writeOperand (h : Nat) (i : Fin 5) (v : Nat) (s : State) : Outcome :=
  if h < s.nHosts ∧ (s.portAt h).accepts then .next { s with ports := s.ports.set h ((s.portAt h).put i (s.inWidth v)) }
  else .next s

/-- The running port goes on: its waiting operation tries again (R207), else its service operation takes a stage. -/
def goOn (s : State) : Outcome :=
  match s.cur.waiting with
  | some i => exec i (s.setCur { s.cur with waiting := none })
  | none =>
    match s.cur.svc with
    | some v => s.serviceStage v
    | none => .next s

/-- Port `h` goes on. -/
def advancePort (h : Nat) (s : State) : Outcome :=
  if h < s.nHosts then goOn (s.onPort h) else .next s

/-- The callback on port `h` returns (R181); no return while an operation of the callback waits. -/
def returnCallback (h : Nat) (s : State) : Outcome :=
  if h < s.nHosts ∧ (s.portAt h).waiting = none then
    match (s.portAt h).svc with
    | some v => (s.onPort h).callbackDone v
    | none => .next s
  else .next s

/-- The 4-byte field at `a` is an aligned field of some ring's descriptor array. -/
def State.ringField (s : State) (a : Nat) : Bool :=
  decide (a % 4 = 0) && s.regions.any fun g => decide (g.1 ≤ a ∧ a + 4 ≤ g.1 + g.2)

/-- Software stores a descriptor field in place (R164, R270; log 26). -/
def hostStore (a : Nat) (v : U32) (s : State) : Outcome :=
  if s.ringField a then .next { s with mem := Memory.write4 s.mem a v } else .next s

/-- What one move does. -/
def perform (a : Input) (s : State) : Outcome :=
  match a with
  | .writeX h i v => writeOperand h i v s
  | .command h w => acceptCommand h w s
  | .advance h => advancePort h s
  | .callbackReturn h => returnCallback h s
  | .hostStore a v => hostStore a v s
  | .devSrcComplete id => devSrcComplete id s
  | .devDstWriteLen id len upper flags => devDstWriteLen id len upper flags s
  | .devDstAdvance id => devDstAdvance id s
  | .devRaiseCc id => devRaiseCc id s
  | .devRaiseOther id m => devRaiseOther id m s
  | .envDeviceDies => envDeviceDies s

/-- The next move is taken from the list; without one nothing happens (log 1). -/
def takeInput (s : State) : Outcome :=
  match s.inputs with
  | [] => .next s
  | a :: rest => perform a { s with inputs := rest }

/-- The port an instruction placed by `withFetchWord` is issued at: the running one where it exists, else port 0. -/
def State.fetchPort (s : State) : Nat := if s.port < s.nHosts then s.port else 0

/-- A port made ready to accept a command word: an operation that waits and a service operation outside a callback are
dropped; a port that accepts already stays as it is (log 29). -/
def Port.readied (p : Port) : Port := if p.accepts then p else { p with waiting := none, svc := none }

/-- The command word `w` placed as the next input, at a port that accepts it (log 29). -/
def State.placeWord (s : State) (w : U32) : State :=
  let h := s.fetchPort
  { s with inputs := .command h w :: s.inputs, ports := s.ports.modify h Port.readied }

end Sys2Proof.Machine
end

