-- ==== Sys2Proof/Safety.lean ====
section
/-! DEFINITION. The terms in which claims speak: when an operation may run, what a frame leaves alone, and the invariants
of a sound state (spec/10_state.md R28 to R31, R42, spec/20_memory.md R77, spec/47_diagnostic_access.md R200). -/

namespace Sys2Proof.Machine

/-! ### When an operation may run -/

/-- The operands of an operation are legal (R109 to R111). -/
def operandsOk (i : Instr) (p : Port) : Bool :=
  match i with
  | .send _ _ _ _ _ => sendOperandsOk p
  | .rxPostBuf _ _ => postOperandsOk p
  | .rxUpdateWriteIdx _ _ => countOperandOk p
  | .allocPipe _ _ => allocOperandsOk p
  | .initPipe _ _ => initOperandsOk p
  | .lock | .unlock | .revertLastGather _ _ | .completedSendNext _ _ | .cancelSendNext _ _ | .availableSendSlots _ _
  | .completedRecvNext _ _ | .revokeRecvNext _ _ | .availableRecvSlots _ _ | .deinitPipe _ _ | .freePipe _ _
  | .servicePipe _ | .serviceAnyPending | .enableInterrupts _ | .disableInterrupts _ => true

/-- The running port exists, and the lock is as the form wants it: held by the port for a nolock form, free for a locked
one (R209, R210). -/
abbrev MayEnter (nl : Bool) (s : State) : Prop :=
  s.port < s.nHosts ∧ s.lockOwner = if nl then some s.port else none

/-- A pipe operation may run: its port and the lock are right and the pipe exists (R111, R210). -/
abbrev PipeReady (nl : Bool) (p : PipeField) (s : State) : Prop :=
  MayEnter nl s ∧ p.toNat < s.nPipes

/-- A source-ring operation may run on ring `r` (R198). -/
abbrev SrcReady (nl : Bool) (p : PipeField) (r : SrcRing) (s : State) : Prop :=
  PipeReady nl p s ∧ (s.pipe p.toNat).phase = .active ∧ (s.pipe p.toNat).src = some r

/-- A destination-ring operation may run on ring `r` (R198). -/
abbrev DstReady (nl : Bool) (p : PipeField) (r : Ring) (s : State) : Prop :=
  PipeReady nl p s ∧ (s.pipe p.toNat).phase = .active ∧ (s.pipe p.toNat).dst = some r

/-- The operations that select the pipe's source ring (R198). -/
def usesSrc : Instr → Bool
  | .send _ _ _ _ _ | .revertLastGather _ _ | .completedSendNext _ _ | .cancelSendNext _ _
  | .availableSendSlots _ _ => true
  | _ => false

/-- The operations that select the pipe's destination ring (R198). -/
def usesDst : Instr → Bool
  | .rxPostBuf _ _ | .rxUpdateWriteIdx _ _ | .completedRecvNext _ _ | .revokeRecvNext _ _
  | .availableRecvSlots _ _ => true
  | _ => false

/-- The answer to the first `DmaAlloc` of an operation (R17). -/
def firstAnswer (s : State) : AllocAnswer := (s.nextAnswer).1

/-- The answer to the `DmaAlloc` for the destination ring: the second one where a source ring of `n` entries was asked for
too (R190). -/
def dstAnswer (s : State) (n : Nat) : AllocAnswer :=
  if n = 0 then (s.nextAnswer).1 else ((s.nextAnswer).2.nextAnswer).1

/-- A request of `n` entries is granted the region `g`; no region where none is asked for (R190, R191). -/
abbrev Grants (n : Nat) (answer : AllocAnswer) (g : Option NewRegion) : Prop :=
  match g with
  | none => n = 0
  | some g => n ≠ 0 ∧ g.cap = roundupPow2 n ∧ answer = .region g.va g.da g.contents

/-- A region that keeps the allocator's contract: aligned (R72) and distinct from the regions in use (R77). -/
abbrev KeepsContract (c : Config) (da size : Nat) (taken : List Region) : Prop :=
  da % c.ringAlign = 0 ∧ ∀ g ∈ taken, disjointRegions (da, size) g = true

/-- A request of `n` entries fails: the allocator fails, or the region leaves the device's range (R191). -/
abbrev FailsFor (c : Config) (n : Nat) (answer : AllocAnswer) (taken : List Region) : Prop :=
  n ≠ 0 ∧ (answer = .fail ∨ ∃ va da contents, answer = .region va da contents ∧
    KeepsContract c da.toNat (roundupPow2 n * descSize) taken ∧
    c.devAddrLimit < da.toNat + roundupPow2 n * descSize)

/-- The release of a region that was had and left the device's range (R191); none where the allocator failed. -/
def releaseOfRefused (answer : AllocAnswer) (n : Nat) : List Event :=
  match answer with
  | .fail => []
  | .region _ da _ => [.dmaRelease da (roundupPow2 n * descSize)]

/-- The moves of the device agent (R217 to R222). -/
def isDeviceMove : Input → Bool
  | .devSrcComplete _ | .devDstWriteLen _ _ _ _ | .devDstAdvance _ | .devRaiseCc _ | .devRaiseOther _ _ => true
  | _ => false

/-- The nolock form of an operation; an operation without one is itself (R106). -/
def nolockForm : Instr → Instr
  | .send _ p g bs tid => .send true p g bs tid
  | .revertLastGather _ p => .revertLastGather true p
  | .completedSendNext _ p => .completedSendNext true p
  | .cancelSendNext _ p => .cancelSendNext true p
  | .availableSendSlots _ p => .availableSendSlots true p
  | .rxPostBuf _ p => .rxPostBuf true p
  | .rxUpdateWriteIdx _ p => .rxUpdateWriteIdx true p
  | .completedRecvNext _ p => .completedRecvNext true p
  | .revokeRecvNext _ p => .revokeRecvNext true p
  | .availableRecvSlots _ p => .availableRecvSlots true p
  | .allocPipe _ p => .allocPipe true p
  | .initPipe _ p => .initPipe true p
  | .deinitPipe _ p => .deinitPipe true p
  | .freePipe _ p => .freePipe true p
  | .enableInterrupts _ => .enableInterrupts true
  | .disableInterrupts _ => .disableInterrupts true
  | .lock => .lock
  | .unlock => .unlock
  | .servicePipe p => .servicePipe p
  | .serviceAnyPending => .serviceAnyPending

/-- An outcome with its next state changed. -/
def mapNext (f : State → State) : Outcome → Outcome
  | .next t => .next (f t)
  | .fault e => .fault e
  | .refused e => .refused e

/-! ### Frames -/

/-- The configuration, the device's liveness, the inputs, the running port and the lock are the same. -/
abbrev SameGlobals (s t : State) : Prop :=
  t.cfg = s.cfg ∧ t.devAlive = s.devAlive ∧ t.inputs = s.inputs ∧ t.port = s.port ∧ t.lockOwner = s.lockOwner

/-- No answer of the allocator and no free value was used. -/
abbrev SameDraws (s t : State) : Prop := t.allocs = s.allocs ∧ t.draws = s.draws

/-- Every port but the running one is the same. -/
abbrev OtherPortsSame (s t : State) : Prop :=
  t.nHosts = s.nHosts ∧ ∀ h, h ≠ s.port → t.portAt h = s.portAt h

/-- Every pipe but `id` is the same: its rings, attributes, registers and device state. -/
abbrev OtherPipesSame (id : Nat) (s t : State) : Prop :=
  t.nPipes = s.nPipes ∧ ∀ j, j ≠ id → t.entry j = s.entry j

/-- Everything but pipe `id`, the running port, memory and the outputs is the same. -/
abbrev PipeFrame (id : Nat) (s t : State) : Prop :=
  SameGlobals s t ∧ SameDraws s t ∧ OtherPortsSame s t ∧ OtherPipesSame id s t

/-- Every byte of memory outside `[a, a + n)` reads the same. -/
abbrev SameMemoryOutside (a n : Nat) (s t : State) : Prop :=
  ∀ b, (b < a ∨ a + n ≤ b) → Memory.read t.mem b = Memory.read s.mem b

/-- Every byte of memory reads the same. -/
abbrev SameMemory (s t : State) : Prop := ∀ b, Memory.read t.mem b = Memory.read s.mem b

/-! ### Invariants -/

/-- A sound ring: capacity a power of two up to `2^31`, indices masked (R27, R28), base aligned (R71) and the array inside
the device's range (R41, R77), contexts in canonical form for slots of the ring. -/
abbrev Ring.ok (c : Config) (r : Ring) : Prop :=
  (∃ k, k < 32 ∧ r.cap.toNat = 2 ^ k) ∧ r.sw.toNat < r.cap.toNat ∧ r.wr.toNat < r.cap.toNat ∧
  r.base.toNat % c.ringAlign = 0 ∧ r.base.toNat + r.bytes ≤ c.devAddrLimit ∧
  sparseSorted r.ctx ∧ ∀ e ∈ r.ctx, e.1 < r.cap.toNat

/-- A sound source ring: also its cached index is masked (R28). -/
abbrev SrcRing.ok (c : Config) (r : SrcRing) : Prop := r.toRing.ok c ∧ r.hw.toNat < r.cap.toNat

/-- A sound pipe: its rings are, and an Unallocated pipe has none (R31, R55, R195). -/
abbrev Pipe.ok (c : Config) (p : Pipe) : Prop :=
  (∀ r ∈ p.src, r.ok c) ∧ (∀ r ∈ p.dst, r.ok c) ∧ (p.phase = .unallocated → p.src = none ∧ p.dst = none)

/-- Every pipe is sound. -/
abbrev PipesOk (s : State) : Prop := ∀ e ∈ s.pipes, e.pipe.ok s.cfg

/-- No two rings of the Engine share a byte (R77). -/
abbrev RegionsDisjoint (s : State) : Prop := s.regions.Pairwise fun a b => disjointRegions a b = true

/-- The diagnostic pipe has `interrupt_disabled` whenever it is allocated (R200). -/
abbrev DiagOk (s : State) : Prop :=
  ∀ id, id < s.nPipes → s.isDiag id = true → (s.pipe id).phase ≠ .unallocated → (s.pipe id).interruptDisabled = true

/-- The lock's owner is a port of the block (R33). -/
abbrev LockOk (s : State) : Prop := ∀ h ∈ s.lockOwner, h < s.nHosts

/-- Every register of a port is below `n`. -/
abbrev Port.fits (n : Nat) (p : Port) : Prop := p.x0 < n ∧ p.x1 < n ∧ p.x2 < n ∧ p.x3 < n ∧ p.x4 < n

/-- `CTX_W` is at least 32, and every port register and every stored context is a `CTX_W`-bit value (R9, R21, R27). -/
abbrev WidthOk (s : State) : Prop :=
  32 ≤ s.cfg.ctxW ∧ (∀ p ∈ s.ports, p.fits (2 ^ s.cfg.ctxW)) ∧
  ∀ e ∈ s.pipes, (∀ r ∈ e.pipe.src, ∀ c ∈ r.ctx, c.2 < 2 ^ s.cfg.ctxW) ∧
    (∀ r ∈ e.pipe.dst, ∀ c ∈ r.ctx, c.2 < 2 ^ s.cfg.ctxW)

/-- A sound state. -/
abbrev Sound (s : State) : Prop :=
  Memory.wf s.mem ∧ PipesOk s ∧ RegionsDisjoint s ∧ DiagOk s ∧ LockOk s ∧ WidthOk s

end Sys2Proof.Machine
end

