-- ==== Sys2Proof/Certificates/Slice0/Obligations.lean ====
section
/-! DEFINITION. The statements about the model, by the spec's numbered rules. -/

open Sys2Proof Sys2Proof.Machine

/-! ### Encoding -/

/-- R105 to R108: no bit of an operation is lost in its command word. -/
def Obligations.DecodeInvertsEncode : Prop :=
  ∀ i : Instr, decode (encode i) = .ok i

/-- R105 to R108: a legal command word is the encoding of the operation it decodes to. -/
def Obligations.EncodeInvertsDecode : Prop :=
  ∀ (w : U32) (i : Instr), decode w = .ok i → encode i = w

/-- R107, R108, R111: the decoder accepts exactly the words that match a row of the opcode map, and no word matches two. -/
def Obligations.LegalWordsMatchExactlyOneRow : Prop :=
  (∀ w : U32, (∃ i, decode w = .ok i) ↔ ∃ r ∈ opcodeRows, r.accepts w = true) ∧
  ∀ (w : U32), ∀ r₁ ∈ opcodeRows, ∀ r₂ ∈ opcodeRows, r₁.accepts w = true → r₂.accepts w = true → r₁ = r₂

/-- Words written out from R105 and R107 (fields TID, BS, G, NL, PIPE, OP from the left) decode to their operations. -/
def Obligations.WrittenOutWordsDecode : Prop :=
  decode 0b00_00000000000101_0_1_0_00011_00010000#32 = .ok (.send false 3#5 true false 5#14) ∧
  decode 0b00_11111111111111_1_1_1_00010_00010000#32 = .ok (.send true 2#5 true true 0x3FFF#14) ∧
  decode 0b000000000000000000_1_00111_00100010#32 = .ok (.completedRecvNext true 7#5) ∧
  decode 0b000000000000000000_0_00001_00110001#32 = .ok (.initPipe false 1#5) ∧
  decode 0b0000000000000000000_00010_01000000#32 = .ok (.servicePipe 2#5) ∧
  decode 0b000000000000000000_1_00000_01000010#32 = .ok (.enableInterrupts true) ∧
  decode 0b000000000000000000000000_00000010#32 = .ok .unlock ∧
  decode 0b000000000000000000_1_00000_00000001#32 = .illegal .fixedBitSet ∧
  decode 0#32 = .illegal .unknownOpcode

/-! ### The step and the command port -/

/-- R104: a command word accepted by a port runs the operation it decodes to, for that port; the step takes the word off
the inputs and does nothing else around it. -/
def Obligations.StepRunsTheDecodedOperation : Prop :=
  ∀ (s : State) (h : Nat) (w : U32) (rest : List Input) (i : Instr),
    s.inputs = .command h w :: rest → h < s.nHosts → (s.portAt h).accepts = true → decode w = .ok i →
    step s = exec i { s with inputs := rest, port := h }

/-- R111: a word that matches no row is refused as IllegalCommand when a port accepts it. -/
def Obligations.IllegalWordsAreRefusedByStep : Prop :=
  ∀ (s : State) (h : Nat) (w : U32) (rest : List Input) (why : IllegalWord),
    s.inputs = .command h w :: rest → h < s.nHosts → (s.portAt h).accepts = true → decode w = .illegal why →
    step s = .refused .illegalCommand

/-- R111: a pipe id of `N_PIPES` or more, or an illegal operand, is refused as IllegalCommand, whatever else holds. That a
watermark operand of `init_pipe` is checked for a direction without a ring too, whose values R110 ignores, is the model's
choice (log 18). -/
def Obligations.IllegalCommandsAreRefused : Prop :=
  ∀ (i : Instr) (s : State), (i.wf s.nPipes = false ∨ operandsOk i s.cur = false) →
    exec i s = .refused .illegalCommand

/-- R21, R104: a busy port outside a callback ignores a command word and a register write; a port that accepts takes the
register write into its own bank, that register alone, the low `CTX_W` bits of the value (R9, log 3). -/
def Obligations.PortWritesLandOnlyWhereAccepted : Prop :=
  (∀ (s : State) (h : Nat) (w : U32) (rest : List Input),
    s.inputs = .command h w :: rest → (s.portAt h).accepts = false → step s = .next { s with inputs := rest }) ∧
  (∀ (s : State) (h : Nat) (i : Fin 5) (v : Nat) (rest : List Input),
    s.inputs = .writeX h i v :: rest → (s.portAt h).accepts = false → step s = .next { s with inputs := rest }) ∧
  (∀ (s : State) (h : Nat) (i : Fin 5) (v : Nat) (rest : List Input),
    s.inputs = .writeX h i v :: rest → h < s.nHosts → (s.portAt h).accepts = true →
    let w := v % 2 ^ s.cfg.ctxW
    ∃ t, step s = .next t ∧ t = { s with inputs := rest, ports := t.ports } ∧
      t.portAt h = { s.portAt h with
        x0 := if i = 0 then w else (s.portAt h).x0
        x1 := if i = 1 then w else (s.portAt h).x1
        x2 := if i = 2 then w else (s.portAt h).x2
        x3 := if i = 3 then w else (s.portAt h).x3
        x4 := if i = 4 then w else (s.portAt h).x4 } ∧
      t.nHosts = s.nHosts ∧ ∀ k, k ≠ h → t.portAt k = s.portAt k)

/-! ### Ring index arithmetic -/

/-- R130, R133: `increment` and `decrement` are the formulas, wrap at the capacity and undo each other. -/
def Obligations.IncrementAndDecrementWrap : Prop :=
  ∀ (k : Nat) (i : U32), k < 32 → i.toNat < 2 ^ k →
    let m := BitVec.ofNat 32 (2 ^ k - 1)
    increment m i = (i + 1#32) &&& m ∧ decrement m i = (i - 1#32) &&& m ∧
    (increment m i).toNat = (i.toNat + 1) % 2 ^ k ∧ (decrement m i).toNat = (i.toNat + (2 ^ k - 1)) % 2 ^ k ∧
    decrement m (increment m i) = i ∧ increment m (decrement m i) = i ∧
    (increment m i).toNat < 2 ^ k ∧ increment m m = 0#32 ∧ decrement m 0#32 = m ∧
    increment 3#32 3#32 = 0#32 ∧ increment 3#32 1#32 = 2#32 ∧ decrement 3#32 0#32 = 3#32

/-- R131: `add` is the formula; for every `n`, wrapped or not, it is addition modulo the capacity; its corners. -/
def Obligations.AddIndexIsModular : Prop :=
  ∀ (k : Nat) (i n : U32), k < 32 → i.toNat < 2 ^ k →
    let m := BitVec.ofNat 32 (2 ^ k - 1)
    addIndex m i n = (i + n) &&& m ∧ (addIndex m i n).toNat = (i.toNat + n.toNat) % 2 ^ k ∧
    addIndex m i 0#32 = i ∧ addIndex m i (BitVec.ofNat 32 (2 ^ k)) = i ∧
    addIndex m i 0xFFFFFFFF#32 = (i - 1#32) &&& m ∧ addIndex 7#32 6#32 5#32 = 3#32

/-- R132: `available_slots` is the formula, below the capacity; an empty ring has `cap - 1`, and 0 means full exactly. -/
def Obligations.AvailableSlotsIsModular : Prop :=
  ∀ (k : Nat) (w c : U32), k < 32 → w.toNat < 2 ^ k → c.toNat < 2 ^ k →
    let m := BitVec.ofNat 32 (2 ^ k - 1)
    availableSlots m w c = ((c - 1#32) - w) &&& m ∧
    (availableSlots m w c).toNat = (c.toNat + 2 * 2 ^ k - 1 - w.toNat) % 2 ^ k ∧
    (availableSlots m w c).toNat ≤ 2 ^ k - 1 ∧
    (w = c → (availableSlots m w c).toNat = 2 ^ k - 1) ∧
    (availableSlots m w c = 0#32 ↔ w = (c - 1#32) &&& m) ∧
    availableSlots m 0#32 0#32 = m ∧ availableSlots 7#32 7#32 0#32 = 0#32

/-- R135 (a), (b), (c): slots plus outstanding is `cap - 1`; `cap` increments are the identity; an enqueue takes one slot, a
retrieval gives one back. -/
def Obligations.AvailablePlusOutstandingIsFull : Prop :=
  ∀ (k : Nat) (w c : U32), k < 32 → w.toNat < 2 ^ k → c.toNat < 2 ^ k →
    let m := BitVec.ofNat 32 (2 ^ k - 1)
    (availableSlots m w c).toNat + (outstanding m w c).toNat = 2 ^ k - 1 ∧
    (increment m)^[2 ^ k] w = w ∧
    (availableSlots m w c ≠ 0#32 → availableSlots m (increment m w) c = availableSlots m w c - 1#32) ∧
    (availableSlots m w c ≠ m → availableSlots m w (increment m c) = availableSlots m w c + 1#32)

/-- R10: `roundup_pow2` gives the least power of two that is at least `n`, and keeps a power of two. -/
def Obligations.RoundupPow2IsLeast : Prop :=
  ∀ n : Nat, 1 ≤ n → n ≤ 2 ^ 31 →
    (∃ k, k < 32 ∧ roundupPow2 n = 2 ^ k) ∧ n ≤ roundupPow2 n ∧
    (∀ j, n ≤ 2 ^ j → roundupPow2 n ≤ 2 ^ j) ∧ (∀ k, n = 2 ^ k → roundupPow2 n = n)

/-! ### Ring memory and register addresses -/

/-- R70, R14: a 4-byte store puts byte `j` of the value at `a + j`, is read back whole, changes no other byte, and keeps
memory's canonical form. -/
def Obligations.FieldStoresAreLittleEndian : Prop :=
  ∀ (m : Memory) (a : Nat) (v : U32),
    (∀ j, j < 4 → Memory.read (Memory.write4 m a v) (a + j) = v.extractLsb' (8 * j) 8) ∧
    Memory.read4 (Memory.write4 m a v) a = v ∧
    (∀ b, (b < a ∨ a + 4 ≤ b) → Memory.read (Memory.write4 m a v) b = Memory.read m b) ∧
    (Memory.wf m → Memory.wf (Memory.write4 m a v))

/-- R16, R76: in a configuration R76 allows, two registers of the block never share a byte offset. -/
def Obligations.RegisterAddressesAreDistinct : Prop :=
  ∀ s : State, s.cfg.mapOk s.nPipes = true →
    (∀ (i j : Nat) (f g : RegField), i < s.nPipes → j < s.nPipes →
      s.regAddr (.block i f) = s.regAddr (.block j g) → i = j ∧ f = g) ∧
    (∀ (i : Nat) (f : RegField), i < s.nPipes → s.regAddr (.block i f) ≠ s.regAddr .intSummary)

/-- R16, R45, R46, R75: a register read gives what the register holds, a write stores the named register of the named pipe
alone, INT_STATUS clearing the bits written as 1; a device that does not respond reads as all ones and drops the write. -/
def Obligations.RegisterAccessFollowsLiveness : Prop :=
  ∀ (s : State) (id : Nat) (f : RegField) (v : U32), id < s.nPipes →
    let t := s.regWrite (.block id f) v
    (s.devAlive = true →
      s.regRead (.block id f) = (s.entry id).cb.get f ∧ t.nPipes = s.nPipes ∧
      (t.entry id).cb.get f = (if f = .intStatus then (s.entry id).cb.get f &&& ~~~v else v) ∧
      (∀ g, g ≠ f → (t.entry id).cb.get g = (s.entry id).cb.get g) ∧
      (t.entry id).pipe = (s.entry id).pipe ∧ ∀ j, j ≠ id → t.entry j = s.entry j) ∧
    (s.devAlive = false → s.regRead (.block id f) = 0xFFFFFFFF#32 ∧ t.pipes = s.pipes)

/-! ### The lock -/

/-- R206 to R208: `lock` takes a free lock, waits while another port holds it and is refused to the holder; `unlock` by its
holder frees it, `unlock` by anyone else is refused; nothing else changes but the status of an operation that returns, which
is Ok. -/
def Obligations.LockAndUnlockMoveTheLock : Prop :=
  encode .lock = 0x00000001#32 ∧ encode .unlock = 0x00000002#32 ∧
  (∀ s : State, s.port < s.nHosts → s.lockOwner = none →
    exec .lock s = .next { s with lockOwner := some s.port, ports := s.ports.set s.port { s.cur with x0 := 0 } }) ∧
  (∀ (s : State) (h : Nat), s.lockOwner = some h → h ≠ s.port →
    exec .lock s = .next { s with ports := s.ports.set s.port { s.cur with waiting := some .lock } }) ∧
  (∀ s : State, s.lockOwner = some s.port → exec .lock s = .refused .relockByOwner) ∧
  (∀ s : State, s.port < s.nHosts → s.lockOwner = some s.port →
    exec .unlock s = .next { s with lockOwner := none, ports := s.ports.set s.port { s.cur with x0 := 0 } }) ∧
  (∀ s : State, s.lockOwner ≠ some s.port → exec .unlock s = .refused .unlockByNonOwner)

/-- R209: the nolock form of every operation is refused unless its port holds the lock, and leaves the lock held. -/
def Obligations.NolockFormNeedsTheLock : Prop :=
  (∀ (i : Instr) (s : State), i.nolock? = some true → i.wf s.nPipes = true → operandsOk i s.cur = true →
    s.lockOwner ≠ some s.port → exec i s = .refused .nolockWithoutLock) ∧
  (∀ (i : Instr) (s t : State), i.nolock? = some true → exec i s = .next t →
    s.lockOwner = some s.port ∧ t.lockOwner = some s.port ∧ t.port = s.port)

/-- R206, R210, R211 (b): `lock`, a locked form and a service operation are refused to the port that holds the lock. That a
service operation from inside a callback has this name too, where R182 says NestedService, is the model's choice (log 17). -/
def Obligations.OwnerCannotRelock : Prop :=
  ∀ (i : Instr) (s : State), i.nolock? ≠ some true → i ≠ .unlock → i.wf s.nPipes = true → operandsOk i s.cur = true →
    s.lockOwner = some s.port → exec i s = .refused .relockByOwner

/-- R207: while another port holds the lock, `lock` and a locked form make the port wait and `service_pipe` waits in its
phase A; nothing else changes. -/
def Obligations.HeldLockMakesOperationWait : Prop :=
  (∀ (i : Instr) (s : State) (h : Nat), (i.nolock? = some false ∨ i = .lock) → i.wf s.nPipes = true →
    operandsOk i s.cur = true → s.lockOwner = some h → h ≠ s.port →
    exec i s = .next { s with ports := s.ports.set s.port { s.cur with waiting := some i } }) ∧
  (∀ (p : PipeField) (s : State) (h : Nat), p.toNat < s.nPipes → s.lockOwner = some h → h ≠ s.port →
    s.cur.svc = none →
    exec (.servicePipe p) s =
      .next { s with ports := s.ports.set s.port { s.cur with svc := some ⟨.phaseA p.toNat, false, 0#32⟩ } })

/-- R207, R180: a waiting port makes no step while another port holds the lock; once it goes on with the lock free it runs its
operation as if it were issued then, and a service operation that waits in phase A runs that phase. -/
def Obligations.WaitingOperationResumes : Prop :=
  (∀ (s : State) (h : Nat) (i : Instr) (rest : List Input), s.inputs = .advance h :: rest → h < s.nHosts →
    (s.portAt h).waiting = some i →
    step s = exec i { s with
      inputs := rest, port := h, ports := s.ports.set h { s.portAt h with waiting := none } } ∧
    (∀ k, s.lockOwner = some k → k ≠ h → (i.nolock? = some false ∨ i = .lock) → i.wf s.nPipes = true →
      operandsOk i (s.portAt h) = true → step s = .next { s with inputs := rest, port := h })) ∧
  ∀ (s : State) (h id : Nat) (enclosed : Bool) (rem : U32) (rest : List Input), s.inputs = .advance h :: rest →
    h < s.nHosts → id < s.nPipes → (s.portAt h).waiting = none →
    (s.portAt h).svc = some ⟨.phaseA id, enclosed, rem⟩ →
    (s.lockOwner = none → ∃ t, step s = .next t ∧ PipeFrame id { s with inputs := rest, port := h } t ∧
      t.cur = { s.portAt h with svc := some ⟨.beforeRecv id, enclosed, rem⟩ } ∧
      t.entry id = { s.entry id with
        cb := if s.devAlive then { (s.entry id).cb with intStatus := (s.entry id).cb.intStatus &&& ~~~s.cfg.ccMask }
          else (s.entry id).cb } ∧
      SameMemory s t ∧ t.trace = .regWrite (s.regAddr (.block id .intStatus)) s.cfg.ccMask :: s.trace) ∧
    (∀ k, s.lockOwner = some k → k ≠ h → step s = .next { s with inputs := rest, port := h })

/-- R210: with the lock free, the locked form of an operation is: acquire, the nolock form, release. -/
def Obligations.LockedFormIsAcquireNolockRelease : Prop :=
  ∀ (i : Instr) (s : State), i.nolock? = some false → s.lockOwner = none →
    exec i s = mapNext State.release (exec (nolockForm i) s.acquire)

/-! ### The send path -/

/-- R141 to R146, R102, R80: `send`: a length of `2^16` or more is refused, a full ring answers OutOfResources and changes
nothing but the warning, a ring with a free slot takes the descriptor and publishes unless gather is requested. -/
def Obligations.SendEnqueuesOneDescriptor : Prop :=
  (∀ (nl : Bool) (p : PipeField) (g bs : Bool) (tid : TidField), encode (.send nl p g bs tid) =
    0#2 ++ tid ++ BitVec.ofBool bs ++ BitVec.ofBool g ++ BitVec.ofBool nl ++ p ++ 0x10#8) ∧
  ∀ (s : State) (nl : Bool) (p : PipeField) (g bs : Bool) (tid : TidField) (r : SrcRing),
    SrcReady nl p r s → sendOperandsOk s.cur = true →
    let id := p.toNat
    let wr := increment r.mask r.wr
    let flags := (tid ++ BitVec.ofBool bs ++ BitVec.ofBool g).setWidth 32
    let warning : List Event :=
      if (s.pipe id).maxSendSize.toNat < s.cur.x3 then [.warn .oversizedSend s.port id] else []
    (2 ^ 16 ≤ s.cur.x3 → exec (.send nl p g bs tid) s = .refused .lengthTooWide) ∧
    (s.cur.x3 < 2 ^ 16 → availableSlots r.mask r.wr r.sw = 0#32 →
      exec (.send nl p g bs tid) s = .next { s with
        ports := s.ports.set s.port { s.cur with x0 := 1 }, trace := warning ++ s.trace }) ∧
    (s.cur.x3 < 2 ^ 16 → availableSlots r.mask r.wr r.sw ≠ 0#32 → s.slotInSpace r.base r.wr = true →
    ∃ t, exec (.send nl p g bs tid) s = .next t ∧ PipeFrame id s t ∧
      t.cur = { s.cur with x0 := 0 } ∧
      t.entry id = { s.entry id with
        pipe := { s.pipe id with src := some { r with wr := wr, ctx := sparseSet r.ctx r.wr.toNat s.cur.x1 } }
        cb := if g = false ∧ s.devAlive = true then { (s.entry id).cb with srcWrIdx := wr } else (s.entry id).cb } ∧
      Memory.read4 t.mem (descAddr r.base r.wr) = BitVec.ofNat 32 s.cur.x2 ∧
      Memory.read4 t.mem (descAddr r.base r.wr + 4) = BitVec.ofNat 32 s.cur.x3 ∧
      Memory.read4 t.mem (descAddr r.base r.wr + 8) = flags ∧
      SameMemoryOutside (descAddr r.base r.wr) 12 s t ∧
      t.trace = (if g then [] else [.regWrite (s.regAddr (.block id .srcWrIdx)) wr, .barrier]) ++
        [.memWrite (descAddr r.base r.wr + 8) flags, .memWrite (descAddr r.base r.wr + 4) (BitVec.ofNat 32 s.cur.x3),
         .memWrite (descAddr r.base r.wr) (BitVec.ofNat 32 s.cur.x2)] ++
        warning ++ s.trace)

/-- R147: `revert_last_gather` takes back one unpublished enqueue, or warns and changes nothing; no register is written and
no byte of memory changes. -/
def Obligations.RevertLastGatherTakesBackOne : Prop :=
  (∀ (nl : Bool) (p : PipeField), encode (.revertLastGather nl p) = 0#18 ++ BitVec.ofBool nl ++ p ++ 0x11#8) ∧
  ∀ (s : State) (nl : Bool) (p : PipeField) (r : SrcRing), SrcReady nl p r s →
    let id := p.toNat
    let v := if s.devAlive then (s.entry id).cb.srcWrIdx else 0xFFFFFFFF#32
    let wr := (r.wr - 1#32) &&& r.mask
    ((r.wr = r.sw ∨ r.wr = v &&& r.mask) →
      exec (.revertLastGather nl p) s = .next { s with
        ports := s.ports.set s.port { s.cur with x0 := 0 }
        trace := .warn .nothingToRevert s.port id :: .regRead (s.regAddr (.block id .srcWrIdx)) v :: s.trace }) ∧
    (r.wr ≠ r.sw → r.wr ≠ v &&& r.mask →
      ∃ t, exec (.revertLastGather nl p) s = .next t ∧ PipeFrame id s t ∧
        t.cur = { s.cur with x0 := 0 } ∧
        t.entry id = { s.entry id with
          pipe := { s.pipe id with src := some { r with wr := wr, ctx := sparseErase r.ctx wr.toNat } } } ∧
        SameMemory s t ∧ t.trace = .regRead (s.regAddr (.block id .srcWrIdx)) v :: s.trace)

/-- R140, R160: the queries give the free slots of the ring and change nothing else. -/
def Obligations.AvailableSlotQueriesOnlyReport : Prop :=
  (∀ (nl : Bool) (p : PipeField), encode (.availableSendSlots nl p) = 0#18 ++ BitVec.ofBool nl ++ p ++ 0x14#8) ∧
  (∀ (nl : Bool) (p : PipeField), encode (.availableRecvSlots nl p) = 0#18 ++ BitVec.ofBool nl ++ p ++ 0x24#8) ∧
  (∀ (s : State) (nl : Bool) (p : PipeField) (r : SrcRing), SrcReady nl p r s →
    exec (.availableSendSlots nl p) s = .next { s with
      ports := s.ports.set s.port { s.cur with
        x0 := 0
        x3 := (((r.sw - 1#32) - r.wr) &&& r.mask).toNat } }) ∧
  (∀ (s : State) (nl : Bool) (p : PipeField) (r : Ring), DstReady nl p r s →
    exec (.availableRecvSlots nl p) s = .next { s with
      ports := s.ports.set s.port { s.cur with
        x0 := 0
        x3 := (((r.sw - 1#32) - r.wr) &&& r.mask).toNat } })

/-! ### Send completion -/

/-- R150, R151, R152 (c): a pending completion is handed out, from the cache without a register read, or after the lazy
refresh. An empty context comes back as 0: the model's choice of R109's two readings (log 24). -/
def Obligations.CompletedSendNextHandsOutOldest : Prop :=
  (∀ (nl : Bool) (p : PipeField), encode (.completedSendNext nl p) = 0#18 ++ BitVec.ofBool nl ++ p ++ 0x12#8) ∧
  ∀ (s : State) (nl : Bool) (p : PipeField) (r : SrcRing), SrcReady nl p r s → s.slotInSpace r.base r.sw = true →
    let id := p.toNat
    let v := if s.devAlive then (s.entry id).cb.srcRdIdx else 0xFFFFFFFF#32
    let hw := if r.hw = r.sw then v &&& r.mask else r.hw
    (r.hw = r.sw → v ≠ 0xFFFFFFFF#32) → hw ≠ r.sw →
    ∃ t, exec (.completedSendNext nl p) s = .next t ∧ PipeFrame id s t ∧
      t.cur = { s.cur with x0 := 0, x1 := (sparseGet r.ctx r.sw.toNat).getD 0 } ∧
      t.entry id = { s.entry id with
        pipe := { s.pipe id with
          src := some { r with sw := increment r.mask r.sw, hw := hw, ctx := sparseErase r.ctx r.sw.toNat } } } ∧
      Memory.read4 t.mem (descAddr r.base r.sw + 4) = 0#32 ∧
      SameMemoryOutside (descAddr r.base r.sw + 4) 4 s t ∧
      t.trace = .memWrite (descAddr r.base r.sw + 4) 0#32 ::
        (if r.hw = r.sw then [.regRead (s.regAddr (.block id .srcRdIdx)) v] else []) ++ s.trace

/-- R150, R151, R231: with nothing new the status is NotReady, with an all-ones register Unsupported; the register is read
once and no ring, register or byte changes. -/
def Obligations.CompletedSendNextReportsNothing : Prop :=
  ∀ (s : State) (nl : Bool) (p : PipeField) (r : SrcRing), SrcReady nl p r s → r.hw = r.sw →
    let id := p.toNat
    let v := if s.devAlive then (s.entry id).cb.srcRdIdx else 0xFFFFFFFF#32
    (v = 0xFFFFFFFF#32 ∨ v &&& r.mask = r.sw) →
    ∃ t, exec (.completedSendNext nl p) s = .next t ∧ PipeFrame id s t ∧ t.entry id = s.entry id ∧
      t.cur = { s.cur with x0 := if v = 0xFFFFFFFF#32 then 5 else 3 } ∧
      SameMemory s t ∧ t.trace = .regRead (s.regAddr (.block id .srcRdIdx)) v :: s.trace

/-- R153: `cancel_send_next` pops the oldest outstanding descriptor whatever the device did, and reads no
register; with `wr = sw` it answers NoData and writes nothing else. An empty context comes back as 0: the model's choice of
R109's two readings (log 24). -/
def Obligations.CancelSendNextDrainsOldest : Prop :=
  (∀ (nl : Bool) (p : PipeField), encode (.cancelSendNext nl p) = 0#18 ++ BitVec.ofBool nl ++ p ++ 0x13#8) ∧
  ∀ (s : State) (nl : Bool) (p : PipeField) (r : SrcRing), SrcReady nl p r s →
    let id := p.toNat
    (r.wr = r.sw → exec (.cancelSendNext nl p) s =
      .next { s with ports := s.ports.set s.port { s.cur with x0 := 4 } }) ∧
    (r.wr ≠ r.sw → s.slotInSpace r.base r.sw = true → ∃ t, exec (.cancelSendNext nl p) s = .next t ∧ PipeFrame id s t ∧
      t.cur = { s.cur with
        x0 := 0
        x1 := (sparseGet r.ctx r.sw.toNat).getD 0
        x2 := (Memory.read4 s.mem (descAddr r.base r.sw)).toNat
        x3 := ((Memory.read4 s.mem (descAddr r.base r.sw + 4)).extractLsb' 0 16).toNat
        x4 := ((Memory.read4 s.mem (descAddr r.base r.sw + 8)).extractLsb' 2 14).toNat } ∧
      t.entry id = { s.entry id with
        pipe := { s.pipe id with
          src := some { r with sw := increment r.mask r.sw, ctx := sparseErase r.ctx r.sw.toNat } } } ∧
      Memory.read4 t.mem (descAddr r.base r.sw + 4) = 0#32 ∧
      SameMemoryOutside (descAddr r.base r.sw + 4) 4 s t ∧
      t.trace = .memWrite (descAddr r.base r.sw + 4) 0#32 :: s.trace)

/-- R198, R238: with the lock as the form wants it and legal operands, a data-path operation is refused on a pipe that is
not Active or lacks the ring. -/
def Obligations.RingCallsAreRefusedByRule : Prop :=
  ∀ (i : Instr) (nl : Bool) (p : PipeField) (s : State), (usesSrc i = true ∨ usesDst i = true) →
    i.nolock? = some nl → i.pipe? = some p → PipeReady nl p s → operandsOk i s.cur = true →
    ((s.pipe p.toNat).phase ≠ .active → exec i s = .refused .pipeNotActive) ∧
    ((s.pipe p.toNat).phase = .active → usesSrc i = true → (s.pipe p.toNat).src = none →
      exec i s = .refused .noSourceRing) ∧
    ((s.pipe p.toNat).phase = .active → usesDst i = true → (s.pipe p.toNat).dst = none →
      exec i s = .refused .noDestinationRing)

/-! ### The receive path -/

/-- R161 to R163, R80: `rx_post_buf` answers OutOfSpace on a full ring and changes nothing else; on a ring with a free slot,
or on the pipe that reuses contexts, it posts the buffer and publishes the write index after the barrier. -/
def Obligations.RxPostBufPostsAndPublishes : Prop :=
  (∀ (nl : Bool) (p : PipeField), encode (.rxPostBuf nl p) = 0#18 ++ BitVec.ofBool nl ++ p ++ 0x20#8) ∧
  ∀ (s : State) (nl : Bool) (p : PipeField) (r : Ring), DstReady nl p r s → postOperandsOk s.cur = true →
    let id := p.toNat
    let wr := increment r.mask r.wr
    (availableSlots r.mask r.wr r.sw = 0#32 → (s.pipe id).reusesReceiveContext = false →
      exec (.rxPostBuf nl p) s = .next { s with ports := s.ports.set s.port { s.cur with x0 := 2 } }) ∧
    (availableSlots r.mask r.wr r.sw ≠ 0#32 ∨ (s.pipe id).reusesReceiveContext = true →
      s.slotInSpace r.base r.wr = true → ∃ t, exec (.rxPostBuf nl p) s = .next t ∧ PipeFrame id s t ∧
      t.cur = { s.cur with x0 := 0 } ∧
      t.entry id = { s.entry id with
        pipe := { s.pipe id with dst := some { r with wr := wr, ctx := sparseSet r.ctx r.wr.toNat s.cur.x1 } }
        cb := if s.devAlive then { (s.entry id).cb with dstWrIdx := wr } else (s.entry id).cb } ∧
      Memory.read4 t.mem (descAddr r.base r.wr) = BitVec.ofNat 32 s.cur.x2 ∧
      Memory.read4 t.mem (descAddr r.base r.wr + 4) = 0#32 ∧
      Memory.read4 t.mem (descAddr r.base r.wr + 8) = 0#32 ∧
      SameMemoryOutside (descAddr r.base r.wr) 12 s t ∧
      t.trace = [.regWrite (s.regAddr (.block id .dstWrIdx)) wr, .barrier, .memWrite (descAddr r.base r.wr + 8) 0#32,
        .memWrite (descAddr r.base r.wr + 4) 0#32, .memWrite (descAddr r.base r.wr) (BitVec.ofNat 32 s.cur.x2)] ++ s.trace)

/-- R164: `rx_update_write_idx` advances the write index by `n`, or by `n - 1` where `n` would meet `sw_index`, and
publishes it after the barrier; it writes no descriptor and no context; `n = 0` is refused. -/
def Obligations.RxUpdateWriteIdxAdvances : Prop :=
  (∀ (nl : Bool) (p : PipeField), encode (.rxUpdateWriteIdx nl p) = 0#18 ++ BitVec.ofBool nl ++ p ++ 0x21#8) ∧
  ∀ (s : State) (nl : Bool) (p : PipeField) (r : Ring), DstReady nl p r s → countOperandOk s.cur = true →
    let id := p.toNat
    let n : U32 := BitVec.ofNat 32 s.cur.x3
    let m := if (r.wr + n) &&& r.mask = r.sw then n - 1#32 else n
    let wr := (r.wr + m) &&& r.mask
    (n = 0#32 → exec (.rxUpdateWriteIdx nl p) s = .refused .zeroAdvance) ∧
    (n ≠ 0#32 → ∃ t, exec (.rxUpdateWriteIdx nl p) s = .next t ∧ PipeFrame id s t ∧
      t.cur = { s.cur with x0 := 0 } ∧
      t.entry id = { s.entry id with
        pipe := { s.pipe id with dst := some { r with wr := wr } }
        cb := if s.devAlive then { (s.entry id).cb with dstWrIdx := wr } else (s.entry id).cb } ∧
      SameMemory s t ∧
      t.trace = [.regWrite (s.regAddr (.block id .dstWrIdx)) wr, .barrier] ++ s.trace)

/-- R165 (b): for `1 ≤ n ≤ available_slots + 1` on a sound ring, `n` slots fewer are free, or none are. -/
def Obligations.RxUpdateInRangeKeepsReservedSlot : Prop :=
  ∀ (s : State) (nl : Bool) (p : PipeField) (r : Ring), DstReady nl p r s → r.ok s.cfg → 1 ≤ s.cur.x3 →
    s.cur.x3 ≤ (availableSlots r.mask r.wr r.sw).toNat + 1 →
    ∃ t r', exec (.rxUpdateWriteIdx nl p) s = .next t ∧ (t.pipe p.toNat).dst = some r' ∧ r'.sw = r.sw ∧
      r'.wr.toNat < r.cap.toNat ∧
      (availableSlots r.mask r'.wr r'.sw).toNat = (availableSlots r.mask r.wr r.sw).toNat - s.cur.x3 ∧
      (outstanding r.mask r'.wr r'.sw).toNat =
        (outstanding r.mask r.wr r.sw).toNat + min s.cur.x3 (availableSlots r.mask r.wr r.sw).toNat

/-- R170, R171: a zero length is NotReady and changes nothing else; otherwise the byte count and the context come back, the
length is cleared, the context unless the pipe reuses it, and `sw_index` advances; no register is accessed. An empty context
comes back as 0: the model's choice of R109's two readings (log 24). -/
def Obligations.CompletedRecvNextReturnsByteCount : Prop :=
  (∀ (nl : Bool) (p : PipeField), encode (.completedRecvNext nl p) = 0#18 ++ BitVec.ofBool nl ++ p ++ 0x22#8) ∧
  ∀ (s : State) (nl : Bool) (p : PipeField) (r : Ring), DstReady nl p r s → s.slotInSpace r.base r.sw = true →
    let id := p.toNat
    let n := (Memory.read4 s.mem (descAddr r.base r.sw + 4)).extractLsb' 0 16
    (n = 0#16 → exec (.completedRecvNext nl p) s =
      .next { s with ports := s.ports.set s.port { s.cur with x0 := 3 } }) ∧
    (n ≠ 0#16 → ∃ t, exec (.completedRecvNext nl p) s = .next t ∧ PipeFrame id s t ∧
      t.cur = { s.cur with x0 := 0, x1 := (sparseGet r.ctx r.sw.toNat).getD 0, x3 := n.toNat } ∧
      t.entry id = { s.entry id with
        pipe := { s.pipe id with dst := some { r with
          sw := increment r.mask r.sw
          ctx := if (s.pipe id).reusesReceiveContext then r.ctx else sparseErase r.ctx r.sw.toNat } } } ∧
      Memory.read4 t.mem (descAddr r.base r.sw + 4) = 0#32 ∧
      SameMemoryOutside (descAddr r.base r.sw + 4) 4 s t ∧
      t.trace = .memWrite (descAddr r.base r.sw + 4) 0#32 :: s.trace)

/-- R173: `revoke_recv_next` pops the oldest posted buffer, filled or not; the context is cleared on every pipe; with `wr = sw`
it answers NoData and writes nothing else. An empty context comes back as 0: the model's choice of R109's two readings
(log 24). -/
def Obligations.RevokeRecvNextDrainsOldest : Prop :=
  (∀ (nl : Bool) (p : PipeField), encode (.revokeRecvNext nl p) = 0#18 ++ BitVec.ofBool nl ++ p ++ 0x23#8) ∧
  ∀ (s : State) (nl : Bool) (p : PipeField) (r : Ring), DstReady nl p r s →
    let id := p.toNat
    (r.wr = r.sw → exec (.revokeRecvNext nl p) s =
      .next { s with ports := s.ports.set s.port { s.cur with x0 := 4 } }) ∧
    (r.wr ≠ r.sw → s.slotInSpace r.base r.sw = true → ∃ t, exec (.revokeRecvNext nl p) s = .next t ∧ PipeFrame id s t ∧
      t.cur = { s.cur with
        x0 := 0
        x1 := (sparseGet r.ctx r.sw.toNat).getD 0
        x2 := (Memory.read4 s.mem (descAddr r.base r.sw)).toNat } ∧
      t.entry id = { s.entry id with
        pipe := { s.pipe id with
          dst := some { r with sw := increment r.mask r.sw, ctx := sparseErase r.ctx r.sw.toNat } } } ∧
      Memory.read4 t.mem (descAddr r.base r.sw + 4) = 0#32 ∧
      SameMemoryOutside (descAddr r.base r.sw + 4) 4 s t ∧
      t.trace = .memWrite (descAddr r.base r.sw + 4) 0#32 :: s.trace)

/-! ### The lifecycle -/

/-- R190, R191: `alloc_pipe` with every request granted makes exactly the rings asked for, sets the attributes and the
phase, writes no register, and changes no byte outside the new regions. -/
def Obligations.AllocPipeCreatesRings : Prop :=
  (∀ (nl : Bool) (p : PipeField), encode (.allocPipe nl p) = 0#18 ++ BitVec.ofBool nl ++ p ++ 0x30#8) ∧
  ∀ (s : State) (nl : Bool) (p : PipeField) (a b : Option NewRegion), PipeReady nl p s →
    allocOperandsOk s.cur = true → (s.pipe p.toNat).phase = .unallocated →
    (s.isDiag p.toNat = true → attrInterruptDisabled s.cur.x4 = true) →
    Grants s.cur.x1 (firstAnswer s) a → Grants s.cur.x3 (dstAnswer s s.cur.x1) b →
    (∀ g ∈ a, KeepsContract s.cfg g.da.toNat g.bytes s.regions ∧ g.da.toNat + g.bytes ≤ s.cfg.devAddrLimit) →
    (∀ g ∈ b, KeepsContract s.cfg g.da.toNat g.bytes ((a.map NewRegion.region).toList ++ s.regions) ∧
      g.da.toNat + g.bytes ≤ s.cfg.devAddrLimit) →
    let id := p.toNat
    ∃ t src dst, exec (.allocPipe nl p) s = .next t ∧ SameGlobals s t ∧ OtherPortsSame s t ∧ OtherPipesSame id s t ∧
      t.cur = { s.cur with x0 := 0 } ∧
      t.entry id = { s.entry id with
        pipe := {
          phase := .allocated
          src := src
          dst := dst
          maxSendSize := BitVec.ofNat 32 s.cur.x2
          interruptDisabled := s.cur.x4.testBit 0
          reusesReceiveContext := s.cur.x4.testBit 1
          hasSendCb := s.cur.x4.testBit 2
          hasRecvCb := s.cur.x4.testBit 3 } } ∧
      (a = none → src = none) ∧ (b = none → dst = none) ∧
      (∀ g ∈ a, ∃ r : SrcRing, src = some r ∧ r.cap.toNat = roundupPow2 s.cur.x1 ∧ r.base = g.da ∧ r.owner = g.va ∧
        r.ctx = []) ∧
      (∀ g ∈ b, ∃ r : Ring, dst = some r ∧ r.cap.toNat = roundupPow2 s.cur.x3 ∧ r.base = g.da ∧ r.owner = g.va ∧
        r.ctx = []) ∧
      t.allocs = s.allocs.drop (a.toList.length + b.toList.length) ∧
      (∀ c, (∀ g, (g ∈ a ∨ g ∈ b) → c < g.da.toNat ∨ g.da.toNat + g.bytes ≤ c) →
        Memory.read t.mem c = Memory.read s.mem c)

/-- R191, R196, R236: where a ring cannot be had, `alloc_pipe` answers OutOfMemory, creates no ring, and gives back what it
got: a region that left the device's range, then a source region obtained before. -/
def Obligations.AllocPipeFailsWhole : Prop :=
  ∀ (s : State) (nl : Bool) (p : PipeField), PipeReady nl p s →
    allocOperandsOk s.cur = true → (s.pipe p.toNat).phase = .unallocated →
    (s.isDiag p.toNat = true → attrInterruptDisabled s.cur.x4 = true) →
    let failsWith (used : Nat) (out : List Event) : Prop := ∃ t, exec (.allocPipe nl p) s = .next t ∧ SameGlobals s t ∧
      OtherPortsSame s t ∧ t.cur = { s.cur with x0 := 6 } ∧ t.pipes = s.pipes ∧ t.mem = s.mem ∧
      t.allocs = s.allocs.drop used ∧ t.trace = out ++ s.trace
    (FailsFor s.cfg s.cur.x1 (firstAnswer s) s.regions →
      failsWith 1 (releaseOfRefused (firstAnswer s) s.cur.x1 ++ [.dmaAlloc (roundupPow2 s.cur.x1 * 12)])) ∧
    (∀ a : Option NewRegion, Grants s.cur.x1 (firstAnswer s) a →
      (∀ g ∈ a, KeepsContract s.cfg g.da.toNat g.bytes s.regions ∧ g.da.toNat + g.bytes ≤ s.cfg.devAddrLimit) →
      FailsFor s.cfg s.cur.x3 (dstAnswer s s.cur.x1) ((a.map NewRegion.region).toList ++ s.regions) →
      failsWith (a.toList.length + 1) ((a.map fun g => .dmaRelease g.da g.bytes).toList ++
        releaseOfRefused (dstAnswer s s.cur.x1) s.cur.x3 ++ [.dmaAlloc (roundupPow2 s.cur.x3 * 12)] ++
        (a.map fun g => .dmaAlloc g.bytes).toList))

/-- R190, R192, R198, R200, R72: `alloc_pipe` and `init_pipe` on the wrong phase, the diagnostic pipe without
`interrupt_disabled`, and a misaligned region, of the source or of the destination, are refused. -/
def Obligations.LifecycleCallsOutOfPhaseAreRefused : Prop :=
  ∀ (s : State) (nl : Bool) (p : PipeField), PipeReady nl p s →
    let id := p.toNat
    (allocOperandsOk s.cur = true → (s.pipe id).phase ≠ .unallocated →
      exec (.allocPipe nl p) s = .refused .pipeAlreadyAllocated) ∧
    (allocOperandsOk s.cur = true → (s.pipe id).phase = .unallocated → id = s.nPipes - 1 → s.cur.x4.testBit 0 = false →
      exec (.allocPipe nl p) s = .refused .diagPipeNeedsIntDis) ∧
    (∀ va da contents, allocOperandsOk s.cur = true → (s.pipe id).phase = .unallocated →
      (id = s.nPipes - 1 → s.cur.x4.testBit 0 = true) → s.cur.x1 ≠ 0 → firstAnswer s = .region va da contents →
      da.toNat % s.cfg.ringAlign ≠ 0 → exec (.allocPipe nl p) s = .refused .allocatorContract) ∧
    (∀ a va da contents, allocOperandsOk s.cur = true → (s.pipe id).phase = .unallocated →
      (id = s.nPipes - 1 → s.cur.x4.testBit 0 = true) → Grants s.cur.x1 (firstAnswer s) a →
      (∀ g ∈ a, KeepsContract s.cfg g.da.toNat g.bytes s.regions ∧ g.da.toNat + g.bytes ≤ s.cfg.devAddrLimit) →
      s.cur.x3 ≠ 0 → dstAnswer s s.cur.x1 = .region va da contents → da.toNat % s.cfg.ringAlign ≠ 0 →
      exec (.allocPipe nl p) s = .refused .allocatorContract) ∧
    (initOperandsOk s.cur = true → (s.pipe id).phase = .unallocated →
      exec (.initPipe nl p) s = .refused .pipeNotAllocated)

/-- R192, R193, R216: `init_pipe` zeroes every descriptor byte of the pipe's rings, seeds the indices from the hardware
registers, gives the device the ring geometry and the watermarks, and makes the pipe Active. -/
def Obligations.InitPipeZeroesSeedsAndPublishes : Prop :=
  (∀ (nl : Bool) (p : PipeField), encode (.initPipe nl p) = 0#18 ++ BitVec.ofBool nl ++ p ++ 0x31#8) ∧
  ∀ (s : State) (nl : Bool) (p : PipeField), PipeReady nl p s → initOperandsOk s.cur = true →
    (s.pipe p.toNat).phase ≠ .unallocated → s.ringsInSpace (s.pipe p.toNat) = true →
    let id := p.toNat
    let cb := (s.entry id).cb
    let rd (v : U32) : U32 := if s.devAlive then v else 0xFFFFFFFF#32
    ∃ t, exec (.initPipe nl p) s = .next t ∧ PipeFrame id s t ∧ t.cur = { s.cur with x0 := 0 } ∧
      t.pipe id = { s.pipe id with
        phase := .active
        src := (s.pipe id).src.map fun r =>
          { r with sw := rd cb.srcRdIdx &&& r.mask, hw := rd cb.srcRdIdx &&& r.mask, wr := rd cb.srcWrIdx &&& r.mask }
        dst := (s.pipe id).dst.map fun r =>
          { r with sw := rd cb.dstRdIdx &&& r.mask, wr := rd cb.dstWrIdx &&& r.mask } } ∧
      (s.devAlive = true →
        (t.entry id).cb = { cb with
          srcBase := ((s.pipe id).src.map fun r => r.base).getD cb.srcBase
          srcSize := ((s.pipe id).src.map fun r => r.cap).getD cb.srcSize
          srcWmLow := ((s.pipe id).src.map fun _ => BitVec.ofNat 32 s.cur.x1).getD cb.srcWmLow
          srcWmHigh := ((s.pipe id).src.map fun _ => BitVec.ofNat 32 s.cur.x2).getD cb.srcWmHigh
          dstBase := ((s.pipe id).dst.map fun r => r.base).getD cb.dstBase
          dstSize := ((s.pipe id).dst.map fun r => r.cap).getD cb.dstSize
          dstWmLow := ((s.pipe id).dst.map fun _ => BitVec.ofNat 32 s.cur.x3).getD cb.dstWmLow
          dstWmHigh := ((s.pipe id).dst.map fun _ => BitVec.ofNat 32 s.cur.x4).getD cb.dstWmHigh } ∧
        (∀ r ∈ (s.pipe id).dst, r.cap ≠ 0#32 →
          (t.entry id).dev = { dstLenIdx := cb.dstRdIdx &&& r.mask, ccPending := false }) ∧
        ((s.pipe id).dst = none → (t.entry id).dev = (s.entry id).dev)) ∧
      (s.devAlive = false → (t.entry id).cb = cb ∧ (t.entry id).dev = (s.entry id).dev) ∧
      (∀ g ∈ (s.pipe id).regions, ∀ c, g.1 ≤ c → c < g.1 + g.2 → Memory.read t.mem c = 0#8) ∧
      (∀ c, (∀ g ∈ (s.pipe id).regions, c < g.1 ∨ g.1 + g.2 ≤ c) → Memory.read t.mem c = Memory.read s.mem c)

/-- R194: `deinit_pipe` zeroes the base and size registers of the directions that have a ring and nothing else; the pipe is
Allocated; a pipe that is not Active is refused. -/
def Obligations.DeinitPipeTakesRingsFromDevice : Prop :=
  (∀ (nl : Bool) (p : PipeField), encode (.deinitPipe nl p) = 0#18 ++ BitVec.ofBool nl ++ p ++ 0x32#8) ∧
  ∀ (s : State) (nl : Bool) (p : PipeField), PipeReady nl p s →
    let id := p.toNat
    let e := s.entry id
    (e.pipe.phase ≠ .active → exec (.deinitPipe nl p) s = .refused .pipeNotActive) ∧
    (e.pipe.phase = .active → ∃ t, exec (.deinitPipe nl p) s = .next t ∧ PipeFrame id s t ∧ t.cur = { s.cur with x0 := 0 } ∧
      t.entry id = { e with
        pipe := { e.pipe with phase := .allocated }
        cb := if s.devAlive then { e.cb with
            srcBase := if e.pipe.src.isSome then 0#32 else e.cb.srcBase
            srcSize := if e.pipe.src.isSome then 0#32 else e.cb.srcSize
            dstBase := if e.pipe.dst.isSome then 0#32 else e.cb.dstBase
            dstSize := if e.pipe.dst.isSome then 0#32 else e.cb.dstSize }
          else e.cb } ∧
      SameMemory s t ∧
      t.trace = (if e.pipe.dst.isSome then
          [.regWrite (s.regAddr (.block id .dstSize)) 0#32, .regWrite (s.regAddr (.block id .dstBase)) 0#32] else []) ++
        (if e.pipe.src.isSome then
          [.regWrite (s.regAddr (.block id .srcSize)) 0#32, .regWrite (s.regAddr (.block id .srcBase)) 0#32] else []) ++
        s.trace)

/-- R195: `free_pipe` releases the regions and drops the rings with their contexts; it writes no register and no byte; a
pipe that is not Allocated is refused. -/
def Obligations.FreePipeReleasesRings : Prop :=
  (∀ (nl : Bool) (p : PipeField), encode (.freePipe nl p) = 0#18 ++ BitVec.ofBool nl ++ p ++ 0x33#8) ∧
  ∀ (s : State) (nl : Bool) (p : PipeField), PipeReady nl p s →
    let id := p.toNat
    ((s.pipe id).phase ≠ .allocated → exec (.freePipe nl p) s = .refused .pipeNotDeinitialised) ∧
    ((s.pipe id).phase = .allocated → ∃ t, exec (.freePipe nl p) s = .next t ∧ PipeFrame id s t ∧ t.cur = { s.cur with x0 := 0 } ∧
      t.entry id = { s.entry id with pipe := { s.pipe id with phase := .unallocated, src := none, dst := none } } ∧
      SameMemory s t ∧
      t.trace = ((s.pipe id).dst.map fun r => .dmaRelease r.base (r.cap.toNat * 12)).toList ++
        ((s.pipe id).src.map fun r => .dmaRelease r.base (r.cap.toNat * 12)).toList ++ s.trace)

/-! ### Interrupt service -/

/-- R180 phase A, R182, R184 (f): with the lock free, `service_pipe` clears the copy-complete status of its pipe before any
callback and leaves the lock free; inside a service operation it is refused. -/
def Obligations.ServicePipeClearsStatusFirst : Prop :=
  (∀ p : PipeField, encode (.servicePipe p) = 0#19 ++ p ++ 0x40#8) ∧
  ∀ (s : State) (p : PipeField), s.port < s.nHosts → p.toNat < s.nPipes →
    let id := p.toNat
    (s.lockOwner = none → s.cur.svc = none →
      ∃ t, exec (.servicePipe p) s = .next t ∧ PipeFrame id s t ∧
        t.cur = { s.cur with svc := some ⟨.beforeRecv id, false, 0#32⟩ } ∧
        t.entry id = { s.entry id with
          cb := if s.devAlive then { (s.entry id).cb with intStatus := (s.entry id).cb.intStatus &&& ~~~s.cfg.ccMask }
            else (s.entry id).cb } ∧
        SameMemory s t ∧ t.trace = .regWrite (s.regAddr (.block id .intStatus)) s.cfg.ccMask :: s.trace) ∧
    (s.lockOwner ≠ some s.port → s.cur.svc ≠ none → exec (.servicePipe p) s = .refused .nestedService ∧
      exec .serviceAnyPending s = .refused .nestedService)

/-- R180 phase B, R181, R182, R277: the receive callback is invoked, then the send callback, each only where the pipe is
allocated and has it; the block waits for each return and refuses one that still holds the lock. -/
def Obligations.CallbacksRunReceiveThenSend : Prop :=
  ∀ (s : State) (h id : Nat) (v : Svc) (rest : List Input), h < s.nHosts → (s.portAt h).waiting = none →
    (s.portAt h).svc = some v →
    let at' (st : SvcStage) (out : List Event) : State := { s with
      inputs := rest, port := h, trace := out ++ s.trace
      ports := s.ports.set h { s.portAt h with svc := some { v with stage := st } } }
    let live := (s.pipe id).phase ≠ .unallocated
    (s.inputs = .advance h :: rest → v.stage = .beforeRecv id →
      (live ∧ (s.pipe id).hasRecvCb = true → step s = .next (at' (.inRecv id) [.notifyRecv h id])) ∧
      (¬(live ∧ (s.pipe id).hasRecvCb = true) → step s = .next (at' (.beforeSend id) []))) ∧
    (s.inputs = .advance h :: rest → v.stage = .beforeSend id →
      (live ∧ (s.pipe id).hasSendCb = true → step s = .next (at' (.inSend id) [.notifySend h id])) ∧
      (¬(live ∧ (s.pipe id).hasSendCb = true) → step s = .next (at' (.phaseC id) []))) ∧
    (s.inputs = .callbackReturn h :: rest → v.stage = .inRecv id →
      (s.lockOwner ≠ some h → step s = .next (at' (.beforeSend id) [])) ∧
      (s.lockOwner = some h → step s = .refused .relockByOwner)) ∧
    (s.inputs = .callbackReturn h :: rest → v.stage = .inSend id →
      (s.lockOwner ≠ some h → step s = .next (at' (.phaseC id) [])) ∧
      (s.lockOwner = some h → step s = .refused .relockByOwner)) ∧
    (s.inputs = .advance h :: rest → (v.stage = .inRecv id ∨ v.stage = .inSend id) →
      step s = .next { s with inputs := rest, port := h })

/-- R180 phase C, R183: with the lock free the watermark status is cleared; then the operation returns `Ok`, or
`service_any_pending` goes on with its remaining bits; with the lock held elsewhere the phase waits. -/
def Obligations.ServicePipeEndsWithWatermarkClear : Prop :=
  ∀ (s : State) (h id : Nat) (enclosed : Bool) (rem : U32) (rest : List Input), h < s.nHosts → id < s.nPipes →
    s.inputs = .advance h :: rest → (s.portAt h).waiting = none →
    (s.portAt h).svc = some ⟨.phaseC id, enclosed, rem⟩ →
    (s.lockOwner = none → ∃ t, step s = .next t ∧ PipeFrame id { s with inputs := rest, port := h } t ∧
      t.cur = (if enclosed then { s.portAt h with svc := some ⟨.scan, true, rem⟩ }
        else { s.portAt h with svc := none, x0 := 0 }) ∧
      t.entry id = { s.entry id with
        cb := if s.devAlive then { (s.entry id).cb with intStatus := (s.entry id).cb.intStatus &&& ~~~s.cfg.wmMask }
          else (s.entry id).cb } ∧
      SameMemory s t ∧ t.trace = .regWrite (s.regAddr (.block id .intStatus)) s.cfg.wmMask :: s.trace) ∧
    (∀ k, s.lockOwner = some k → k ≠ h → step s = .next { s with inputs := rest, port := h })

/-- R183, R184 (b): `service_any_pending` reads the summary once, keeps the bits of existing pipes and changes nothing
else. -/
def Obligations.ServiceAnyPendingReadsSummaryOnce : Prop :=
  encode .serviceAnyPending = 0x00000041#32 ∧
  ∀ s : State, s.port < s.nHosts → s.nPipes ≤ 32 → s.lockOwner ≠ some s.port → s.cur.svc = none →
    let v := if s.devAlive then s.intSummary else 0xFFFFFFFF#32
    ∃ rem, (∀ i, rem.getLsbD i = (decide (i < s.nPipes) && v.getLsbD i)) ∧
      exec .serviceAnyPending s = .next { s with
        ports := s.ports.set s.port { s.cur with svc := some ⟨.scan, true, rem⟩ }
        trace := .regRead s.cfg.intSummaryAddr v :: s.trace }

/-- R183, R207: the scan takes the lowest pipe whose bit remains, consumes the bit and runs that pipe's phase A, or waits in it
while another port holds the lock; with no bit left the operation returns `Ok`. -/
def Obligations.ServiceAnyPendingTakesLowestPipe : Prop :=
  ∀ (s : State) (h : Nat) (rem : U32) (rest : List Input), h < s.nHosts → s.nPipes ≤ 32 →
    s.inputs = .advance h :: rest → (s.portAt h).waiting = none → (s.portAt h).svc = some ⟨.scan, true, rem⟩ →
    ((∀ j, j < s.nPipes → rem.getLsbD j = false) → step s = .next { s with
      inputs := rest, port := h, ports := s.ports.set h { s.portAt h with svc := none, x0 := 0 } }) ∧
    (∀ id, id < s.nPipes → rem.getLsbD id = true → (∀ j, j < id → rem.getLsbD j = false) → s.lockOwner = none →
      ∃ t rem', step s = .next t ∧ PipeFrame id { s with inputs := rest, port := h } t ∧
        (∀ j, rem'.getLsbD j = (rem.getLsbD j && decide (j ≠ id))) ∧
        t.cur = { s.portAt h with svc := some ⟨.beforeRecv id, true, rem'⟩ } ∧
        t.entry id = { s.entry id with
          cb := if s.devAlive then { (s.entry id).cb with intStatus := (s.entry id).cb.intStatus &&& ~~~s.cfg.ccMask }
            else (s.entry id).cb } ∧
        SameMemory s t ∧ t.trace = .regWrite (s.regAddr (.block id .intStatus)) s.cfg.ccMask :: s.trace) ∧
    (∀ id k, id < s.nPipes → rem.getLsbD id = true → (∀ j, j < id → rem.getLsbD j = false) → s.lockOwner = some k →
      k ≠ h → ∃ rem', (∀ j, rem'.getLsbD j = (rem.getLsbD j && decide (j ≠ id))) ∧ step s = .next { s with
        inputs := rest, port := h, ports := s.ports.set h { s.portAt h with svc := some ⟨.phaseA id, true, rem'⟩ } })

/-- R185 to R187: `enable_interrupts` writes every pipe's whole INT_ENABLE with CC_MASK or 0 by the policy,
`disable_interrupts` writes 0; a dead device drops the writes; nothing else of any pipe changes. -/
def Obligations.InterruptEnablesFollowPolicy : Prop :=
  (∀ nl : Bool, encode (.enableInterrupts nl) = 0#18 ++ BitVec.ofBool nl ++ 0#5 ++ 0x42#8) ∧
  (∀ nl : Bool, encode (.disableInterrupts nl) = 0#18 ++ BitVec.ofBool nl ++ 0#5 ++ 0x43#8) ∧
  ∀ (s : State) (nl : Bool), MayEnter nl s →
    let wanted (id : Nat) : Prop := (s.pipe id).phase ≠ .unallocated ∧
      ((s.pipe id).hasSendCb = true ∨ (s.pipe id).hasRecvCb = true) ∧ (s.pipe id).interruptDisabled = false
    let written (t : State) (id : Nat) (v : U32) : Prop := t.entry id = { s.entry id with
      cb := if s.devAlive then { (s.entry id).cb with intEnable := v } else (s.entry id).cb }
    (∃ t, exec (.enableInterrupts nl) s = .next t ∧ SameGlobals s t ∧ SameDraws s t ∧ OtherPortsSame s t ∧
      t.nPipes = s.nPipes ∧ t.cur = { s.cur with x0 := 0 } ∧ SameMemory s t ∧
      (∀ id, id < s.nPipes → (wanted id → written t id s.cfg.ccMask) ∧ (¬wanted id → written t id 0#32))) ∧
    (∃ t, exec (.disableInterrupts nl) s = .next t ∧ SameGlobals s t ∧ SameDraws s t ∧ OtherPortsSame s t ∧
      t.nPipes = s.nPipes ∧ t.cur = { s.cur with x0 := 0 } ∧ SameMemory s t ∧
      (∀ id, id < s.nPipes → written t id 0#32))

/-- R47, R48: bit `i` of INT_SUMMARY is 1 exactly when a cause of pipe `i` is pending and enabled, bits `N_PIPES` and up
are 0, a read at INT_SUMMARY_ADDR gives it, writes to it change no register, and `irq` says that some pipe requests. The two
registers count whole, reserved bits included: the model's choice (log 36). -/
def Obligations.SummaryBitsFollowStatusAndEnable : Prop :=
  ∀ s : State, s.nPipes ≤ 32 →
    s.regAddr .intSummary = s.cfg.intSummaryAddr ∧ (s.devAlive = true → s.regRead .intSummary = s.intSummary) ∧
    (∀ i, i < s.nPipes → (s.intSummary.getLsbD i = true ↔
      (s.entry i).cb.intStatus &&& (s.entry i).cb.intEnable ≠ 0#32)) ∧
    (∀ i, s.nPipes ≤ i → s.intSummary.getLsbD i = false) ∧
    (∀ v, (s.regWrite .intSummary v).pipes = s.pipes) ∧
    (s.irq = true ↔ s.intSummary ≠ 0#32) ∧
    (s.irq = true ↔ ∃ i, i < s.nPipes ∧ (s.entry i).cb.intStatus &&& (s.entry i).cb.intEnable ≠ 0#32)

/-! ### The device side -/

/-- R217: `dev_src_complete` where it is enabled advances the completion index by one slot and leaves a completion pending;
where it is not enabled nothing happens. -/
def Obligations.DevSrcCompleteAdvancesIndex : Prop :=
  ∀ (s : State) (id : Nat) (rest : List Input), s.inputs = .devSrcComplete id :: rest → id < s.nPipes →
    let e := s.entry id
    (e.cb.srcSize ≠ 0#32 → e.cb.srcRdIdx ≠ e.cb.srcWrIdx → s.slotInSpace e.cb.srcBase e.cb.srcRdIdx = true →
      ∃ t, step s = .next t ∧ PipeFrame id { s with inputs := rest } t ∧ t.ports = s.ports ∧ t.mem = s.mem ∧
        t.trace = .devRead id (descAddr e.cb.srcBase e.cb.srcRdIdx) :: s.trace ∧
        t.entry id = { e with
          cb := { e.cb with srcRdIdx := (e.cb.srcRdIdx + 1#32) &&& (e.cb.srcSize - 1#32) }
          dev := { e.dev with ccPending := true } }) ∧
    ((e.cb.srcSize = 0#32 ∨ e.cb.srcRdIdx = e.cb.srcWrIdx) → step s = .next { s with inputs := rest })

/-- R218: `dev_dst_write_len` where it is enabled stores the length word of the slot, and the flags word if the device
writes it, and moves to the next slot; where it is not enabled nothing happens. -/
def Obligations.DevDstWriteLenFillsSlot : Prop :=
  ∀ (s : State) (id : Nat) (len upper : U16) (flags : Option U32) (rest : List Input),
    s.inputs = .devDstWriteLen id len upper flags :: rest → id < s.nPipes →
    let e := s.entry id
    let slot := descAddr e.cb.dstBase e.dev.dstLenIdx
    (e.cb.dstSize ≠ 0#32 → e.dev.dstLenIdx ≠ e.cb.dstWrIdx → len ≠ 0#16 →
      s.slotInSpace e.cb.dstBase e.dev.dstLenIdx = true →
      ∃ t, step s = .next t ∧ PipeFrame id { s with inputs := rest } t ∧ t.ports = s.ports ∧ t.trace = .devRead id slot :: s.trace ∧
        t.entry id = { e with dev := { e.dev with
          dstLenIdx := (e.dev.dstLenIdx + 1#32) &&& (e.cb.dstSize - 1#32) } } ∧
        Memory.read4 t.mem (slot + 4) = upper ++ len ∧
        (∀ f, flags = some f → Memory.read4 t.mem (slot + 8) = f) ∧
        SameMemoryOutside (slot + 4) (if flags.isSome then 8 else 4) s t) ∧
    ((e.cb.dstSize = 0#32 ∨ e.dev.dstLenIdx = e.cb.dstWrIdx ∨ len = 0#16) → step s = .next { s with inputs := rest })

/-- R219, R221, R222: the destination index advances and leaves a completion pending; a pending completion becomes
copy-complete status; watermark and error bits may be raised at any time; a move that is not enabled does nothing. -/
def Obligations.DeviceAdvancesAndRaisesStatus : Prop :=
  ∀ (s : State) (id : Nat) (rest : List Input), id < s.nPipes →
    let e := s.entry id
    let becomes (e' : PipeEntry) : Prop := ∃ t, step s = .next t ∧ PipeFrame id { s with inputs := rest } t ∧
      t.ports = s.ports ∧ t.mem = s.mem ∧ t.trace = s.trace ∧ t.entry id = e'
    (s.inputs = .devDstAdvance id :: rest →
      (e.cb.dstSize ≠ 0#32 ∧ e.cb.dstRdIdx ≠ e.cb.dstWrIdx → becomes { e with
        cb := { e.cb with dstRdIdx := (e.cb.dstRdIdx + 1#32) &&& (e.cb.dstSize - 1#32) }
        dev := { e.dev with ccPending := true } }) ∧
      (e.cb.dstSize = 0#32 ∨ e.cb.dstRdIdx = e.cb.dstWrIdx → becomes e)) ∧
    (s.inputs = .devRaiseCc id :: rest →
      (e.dev.ccPending = true → becomes { e with
        cb := { e.cb with intStatus := e.cb.intStatus ||| s.cfg.ccMask }
        dev := { e.dev with ccPending := false } }) ∧
      (e.dev.ccPending = false → becomes e)) ∧
    (∀ m, s.inputs = .devRaiseOther id m :: rest → m &&& (s.cfg.wmMask ||| s.cfg.errMask) = m →
      becomes { e with cb := { e.cb with intStatus := e.cb.intStatus ||| m } })

/-- R225: a device move never touches the ports, the lock, the pipe table with its rings and contexts, or a register only
the host writes, and it clears no status bit. -/
def Obligations.DeviceTouchesOnlyItsOwn : Prop :=
  ∀ (s t : State) (a : Input) (rest : List Input), s.inputs = a :: rest → isDeviceMove a = true → step s = .next t →
    t.cfg = s.cfg ∧ t.ports = s.ports ∧ t.lockOwner = s.lockOwner ∧ t.devAlive = s.devAlive ∧ t.allocs = s.allocs ∧
    t.nPipes = s.nPipes ∧
    ∀ id, t.pipe id = s.pipe id ∧
      (t.entry id).cb = { (s.entry id).cb with
        srcRdIdx := (t.entry id).cb.srcRdIdx
        dstRdIdx := (t.entry id).cb.dstRdIdx
        intStatus := (t.entry id).cb.intStatus } ∧
      (s.entry id).cb.intStatus &&& ~~~(t.entry id).cb.intStatus = 0#32

/-- R223, R164, R270 (log 26): the environment may end the device and changes nothing else; software's in-place store of an
aligned field inside a ring reaches memory alone, and one outside every ring is no move. -/
def Obligations.OutsideMovesChangeOneThing : Prop :=
  (∀ (s : State) (rest : List Input), s.inputs = .envDeviceDies :: rest →
    step s = .next { s with inputs := rest, devAlive := false }) ∧
  (∀ (s : State) (a : Nat) (v : U32) (rest : List Input), s.inputs = .hostStore a v :: rest →
    ((a % 4 = 0 ∧ ∃ g ∈ s.regions, g.1 ≤ a ∧ a + 4 ≤ g.1 + g.2) →
      step s = .next { s with inputs := rest, mem := Memory.write4 s.mem a v }) ∧
    (¬(a % 4 = 0 ∧ ∃ g ∈ s.regions, g.1 ≤ a ∧ a + 4 ≤ g.1 + g.2) → step s = .next { s with inputs := rest }))

/-! ### Invariants of every step -/

/-- Memory keeps its canonical form: rising addresses, no listed byte that reads as an unlisted one (the model's own form,
log 8). -/
def Obligations.StepKeepsMemoryCanonical : Prop :=
  ∀ s t : State, Memory.wf s.mem → step s = .next t → Memory.wf t.mem

/-- R27, R28, R31, R41, R77: every step keeps every ring sound: capacity a power of two, indices masked, base aligned, array
inside the device's range, contexts for slots of the ring; an Unallocated pipe has no ring. R9, R21: every step keeps every
port register and every stored context within `CTX_W` bits. -/
def Obligations.StepKeepsPipesSound : Prop :=
  ∀ s t : State, step s = .next t → (PipesOk s → PipesOk t) ∧ (WidthOk s → WidthOk t)

/-- R77: every step keeps the rings of all pipes and directions disjoint. -/
def Obligations.StepKeepsRegionsDisjoint : Prop :=
  ∀ s t : State, PipesOk s → RegionsDisjoint s → step s = .next t → RegionsDisjoint t

/-- R200: every step keeps the diagnostic pipe's interrupts disabled while it is allocated, and the lock with a port of the
block (R33). -/
def Obligations.StepKeepsDiagnosticPipeSilent : Prop :=
  ∀ s t : State, DiagOk s → LockOk s → step s = .next t → DiagOk t ∧ LockOk t

/-- R77, R51: in a state whose rings are sound every slot at a ring's indices exists in device-bus space, and no operation
reaches an address that does not exist. -/
def Obligations.NoOperationFaultsInSoundState : Prop :=
  ∀ s : State, PipesOk s →
    (∀ id, ∀ r ∈ (s.pipe id).src, s.slotInSpace r.base r.sw = true ∧ s.slotInSpace r.base r.wr = true) ∧
    (∀ id, ∀ r ∈ (s.pipe id).dst, s.slotInSpace r.base r.sw = true ∧ s.slotInSpace r.base r.wr = true) ∧
    (∀ id, s.ringsInSpace (s.pipe id) = true) ∧
    ∀ (i : Instr) (f : Fault), exec i s ≠ .fault f

/-- R55: after reset every pipe is Unallocated without rings, the lock is free and every port idle; and the state is sound
in a configuration R9 allows. -/
def Obligations.ResetStateIsSound : Prop :=
  (∀ e ∈ State.reset.pipes, e.pipe.phase = .unallocated ∧ e.pipe.src = none ∧ e.pipe.dst = none) ∧
  State.reset.lockOwner = none ∧ (∀ p ∈ State.reset.ports, p.busy = false ∧ p.svc = none) ∧
  State.reset.cfg.wf State.reset.nPipes State.reset.nHosts = true ∧ Sound State.reset

/-- R44: no step writes INT_ENABLE with anything but CC_MASK or 0, so watermark and error interrupts are never enabled. -/
def Obligations.OnlyCopyCompleteIsEverEnabled : Prop :=
  ∀ (s t : State) (id : Nat), step s = .next t →
    (t.entry id).cb.intEnable = (s.entry id).cb.intEnable ∨ (t.entry id).cb.intEnable = s.cfg.ccMask ∨
    (t.entry id).cb.intEnable = 0#32

/-- R45, R46, R9: no step clears an error status bit, revives a dead device, or changes the configuration or the number of
pipes and ports. -/
def Obligations.ErrorStatusAndDeathAreNeverUndone : Prop :=
  ∀ s t : State, step s = .next t →
    t.cfg = s.cfg ∧ t.nPipes = s.nPipes ∧ t.nHosts = s.nHosts ∧ (s.devAlive = false → t.devAlive = false) ∧
    (s.cfg.ccMask &&& s.cfg.errMask = 0#32 → s.cfg.wmMask &&& s.cfg.errMask = 0#32 →
      ∀ id, (s.entry id).cb.intStatus &&& s.cfg.errMask &&& ~~~(t.entry id).cb.intStatus = 0#32)
end

