-- ==== Sys2Proof/Laws/Memory.lean ====
section
/-! SUPPORT. Laws of sparse arrays and of memory: a read after a write, and the canonical form. -/

namespace Sys2Proof.Machine

/-! Lemmas are elaborated one after another: the threads of parallel elaboration count against the memory limit. -/
set_option Elab.async false

variable {α : Type}

/-! ### Sparse arrays -/

@[simp] theorem sparseGet_set_same (m : Sparse α) (a : Nat) (v : α) : sparseGet (sparseSet m a v) a = some v := by
  induction m with
  | nil => simp [sparseSet, sparseGet]
  | cons c rest ih =>
    obtain ⟨k, w⟩ := c
    unfold sparseSet
    split
    · simp [sparseGet]
    · split
      · simp [sparseGet]
      · rename_i h h'
        simp [sparseGet, Ne.symm h', ih]

theorem sparseGet_set_other (m : Sparse α) (a b : Nat) (v : α) (h : b ≠ a) :
    sparseGet (sparseSet m a v) b = sparseGet m b := by
  induction m with
  | nil => simp [sparseSet, sparseGet, Ne.symm h]
  | cons c rest ih =>
    obtain ⟨k, w⟩ := c
    unfold sparseSet
    split
    · simp [sparseGet, Ne.symm h]
    · split
      · rename_i _ h'
        subst h'
        simp [sparseGet, Ne.symm h]
      · simp [sparseGet, ih]

@[simp] theorem sparseGet_erase_same (m : Sparse α) (a : Nat) : sparseGet (sparseErase m a) a = none := by
  induction m with
  | nil => rfl
  | cons c rest ih =>
    obtain ⟨k, w⟩ := c
    by_cases h : k = a <;> simp_all [sparseErase, sparseGet]

theorem sparseGet_erase_other (m : Sparse α) (a b : Nat) (h : b ≠ a) :
    sparseGet (sparseErase m a) b = sparseGet m b := by
  induction m with
  | nil => rfl
  | cons c rest ih =>
    obtain ⟨k, w⟩ := c
    by_cases h' : k = a
    · subst h'
      simp_all [sparseErase, sparseGet, Ne.symm h]
    · simp_all [sparseErase, sparseGet]

theorem sparseGet_eraseRange (m : Sparse α) (a n b : Nat) :
    sparseGet (sparseEraseRange m a n) b = if a ≤ b ∧ b < a + n then none else sparseGet m b := by
  induction m with
  | nil => simp [sparseEraseRange, sparseGet]
  | cons c rest ih =>
    obtain ⟨k, w⟩ := c
    by_cases hk : k < a ∨ a + n ≤ k
    · have : sparseEraseRange ((k, w) :: rest) a n = (k, w) :: sparseEraseRange rest a n := by
        simp [sparseEraseRange, hk]
      rw [this]
      by_cases hb : k = b
      · subst hb
        have : ¬(a ≤ k ∧ k < a + n) := by omega
        simp [sparseGet, this]
      · simp [sparseGet, hb, ih]
    · have : sparseEraseRange ((k, w) :: rest) a n = sparseEraseRange rest a n := by
        simp [sparseEraseRange, hk]
      rw [this, ih]
      by_cases hb : k = b
      · subst hb
        have : a ≤ k ∧ k < a + n := by omega
        simp [this]
      · simp [sparseGet, hb]

/-- Every entry of a written array is the new one or was there. -/
theorem mem_sparseSet (m : Sparse α) (a : Nat) (v : α) (e : Nat × α) (h : e ∈ sparseSet m a v) :
    e = (a, v) ∨ e ∈ m := by
  induction m with
  | nil => simpa [sparseSet] using h
  | cons c rest ih =>
    obtain ⟨k, w⟩ := c
    unfold sparseSet at h
    split at h
    · simpa using h
    · split at h
      · rcases List.mem_cons.1 h with h | h
        · exact .inl h
        · exact .inr (List.mem_cons_of_mem _ h)
      · rcases List.mem_cons.1 h with h | h
        · exact .inr (h ▸ List.mem_cons_self)
        · rcases ih h with h | h
          · exact .inl h
          · exact .inr (List.mem_cons_of_mem _ h)

theorem sparseSet_sorted (m : Sparse α) (a : Nat) (v : α) (h : sparseSorted m) : sparseSorted (sparseSet m a v) := by
  induction m with
  | nil => simp [sparseSet, sparseSorted]
  | cons c rest ih =>
    obtain ⟨k, w⟩ := c
    obtain ⟨hk, hr⟩ := List.pairwise_cons.1 h
    unfold sparseSet
    split
    · rename_i hlt
      refine List.pairwise_cons.2 ⟨?_, h⟩
      intro d hd
      rcases List.mem_cons.1 hd with rfl | hd
      · exact hlt
      · exact Nat.lt_trans hlt (hk d hd)
    · split
      · rename_i _ heq
        subst heq
        exact List.pairwise_cons.2 ⟨fun d hd => hk d hd, hr⟩
      · refine List.pairwise_cons.2 ⟨?_, ih hr⟩
        intro d hd
        rcases mem_sparseSet rest a v d hd with rfl | hd
        · show k < a
          omega
        · exact hk d hd

theorem sparseErase_sorted (m : Sparse α) (a : Nat) (h : sparseSorted m) : sparseSorted (sparseErase m a) :=
  List.Pairwise.filter _ h

theorem sparseEraseRange_sorted (m : Sparse α) (a n : Nat) (h : sparseSorted m) :
    sparseSorted (sparseEraseRange m a n) :=
  List.Pairwise.filter _ h

/-! ### Bytes -/

@[simp] theorem Memory.read_write_same (m : Memory) (a : Nat) (b : Byte) : Memory.read (Memory.write m a b) a = b := by
  unfold Memory.write
  split
  · rename_i h
    simp [Memory.read, h]
  · simp [Memory.read]

theorem Memory.read_write_other (m : Memory) (a c : Nat) (b : Byte) (h : c ≠ a) :
    Memory.read (Memory.write m a b) c = Memory.read m c := by
  unfold Memory.write
  split
  · simp [Memory.read, sparseGet_erase_other _ _ _ h]
  · simp [Memory.read, sparseGet_set_other _ _ _ _ h]

/-- A byte after a write. -/
theorem Memory.read_write (m : Memory) (a c : Nat) (b : Byte) :
    Memory.read (Memory.write m a b) c = if c = a then b else Memory.read m c := by
  by_cases h : c = a
  · subst h; simp
  · simp [h, Memory.read_write_other m a c b h]

theorem Memory.read_zero (m : Memory) (a n c : Nat) :
    Memory.read (Memory.zero m a n) c = if a ≤ c ∧ c < a + n then unlistedByte else Memory.read m c := by
  unfold Memory.read Memory.zero
  rw [sparseGet_eraseRange]
  split <;> simp

theorem Memory.write_wf (m : Memory) (a : Nat) (b : Byte) (h : Memory.wf m) : Memory.wf (Memory.write m a b) := by
  unfold Memory.write
  split
  · exact ⟨sparseErase_sorted m a h.1, fun c hc => h.2 c (List.mem_filter.1 hc).1⟩
  · rename_i hb
    refine ⟨sparseSet_sorted m a b h.1, fun c hc => ?_⟩
    rcases mem_sparseSet m a b c hc with rfl | hc
    · exact hb
    · exact h.2 c hc

theorem Memory.zero_wf (m : Memory) (a n : Nat) (h : Memory.wf m) : Memory.wf (Memory.zero m a n) :=
  ⟨sparseEraseRange_sorted m a n h.1, fun c hc => h.2 c (List.mem_filter.1 hc).1⟩

theorem Memory.write4_wf (m : Memory) (a : Nat) (v : U32) (h : Memory.wf m) : Memory.wf (Memory.write4 m a v) := by
  unfold Memory.write4
  exact Memory.write_wf _ _ _ (Memory.write_wf _ _ _ (Memory.write_wf _ _ _ (Memory.write_wf _ _ _ h)))

theorem Memory.install_wf (m : Memory) (a n : Nat) (contents : List (Nat × Byte)) (h : Memory.wf m) :
    Memory.wf (Memory.install m a n contents) := by
  unfold Memory.install
  generalize hz : Memory.zero m a n = z
  have hz' : Memory.wf z := hz ▸ Memory.zero_wf m a n h
  clear hz
  induction contents generalizing z with
  | nil => exact hz'
  | cons c rest ih =>
    simp only [List.foldl_cons]
    split
    · exact ih _ (Memory.write_wf _ _ _ hz')
    · exact ih _ hz'

/-- A byte outside a region is not touched by the allocator's contents. -/
theorem Memory.read_install_outside (m : Memory) (a n c : Nat) (contents : List (Nat × Byte)) (h : c < a ∨ a + n ≤ c) :
    Memory.read (Memory.install m a n contents) c = Memory.read m c := by
  unfold Memory.install
  have hz : Memory.read (Memory.zero m a n) c = Memory.read m c := by
    rw [Memory.read_zero, if_neg (by omega)]
  rw [← hz]
  generalize Memory.zero m a n = z
  clear hz
  induction contents generalizing z with
  | nil => rfl
  | cons d rest ih =>
    simp only [List.foldl_cons]
    rw [ih]
    split
    · exact Memory.read_write_other _ _ _ _ (by omega)
    · rfl

/-! ### Four-byte fields -/

/-- A byte after a 4-byte store: its own byte of the value inside the field, as before outside (R70). -/
theorem Memory.read_write4 (m : Memory) (a c : Nat) (v : U32) :
    Memory.read (Memory.write4 m a v) c =
      if c = a then v.extractLsb' 0 8 else if c = a + 1 then v.extractLsb' 8 8
      else if c = a + 2 then v.extractLsb' 16 8 else if c = a + 3 then v.extractLsb' 24 8
      else Memory.read m c := by
  unfold Memory.write4
  simp only [Memory.read_write]
  by_cases h0 : c = a
  · subst h0; simp
  · by_cases h1 : c = a + 1
    · subst h1; simp
    · by_cases h2 : c = a + 2
      · subst h2; simp
      · simp [h0, h1, h2]

theorem Memory.read_write4_outside (m : Memory) (a c : Nat) (v : U32) (h : c < a ∨ a + 4 ≤ c) :
    Memory.read (Memory.write4 m a v) c = Memory.read m c := by
  have h0 : c ≠ a := by omega
  have h1 : c ≠ a + 1 := by omega
  have h2 : c ≠ a + 2 := by omega
  have h3 : c ≠ a + 3 := by omega
  simp [Memory.read_write4, h0, h1, h2, h3]

/-- A field that shares no byte with the stored one. -/
theorem Memory.read4_write4_other (m : Memory) (a c : Nat) (v : U32) (h : c + 4 ≤ a ∨ a + 4 ≤ c) :
    Memory.read4 (Memory.write4 m a v) c = Memory.read4 m c := by
  unfold Memory.read4
  rw [Memory.read_write4_outside _ _ _ _ (by omega), Memory.read_write4_outside _ _ _ _ (by omega),
    Memory.read_write4_outside _ _ _ _ (by omega), Memory.read_write4_outside _ _ _ _ (by omega)]

end Sys2Proof.Machine
end

