-- ==== Sys2Proof/Laws/State.lean ====
section
/-! SUPPORT. What each named update of the state leaves in each field: one lemma per field per update. -/

namespace Sys2Proof.Machine

/-! Lemmas are elaborated one after another: the threads of parallel elaboration count against the memory limit. -/
set_option Elab.async false

/-! ### `State.updEntry` -/

@[simp] theorem State.updEntry_cfg (s : State) (id : Nat) (f : PipeEntry → PipeEntry) : (s.updEntry id f).cfg = s.cfg := rfl
@[simp] theorem State.updEntry_ports (s : State) (id : Nat) (f : PipeEntry → PipeEntry) : (s.updEntry id f).ports = s.ports := rfl
@[simp] theorem State.updEntry_lockOwner (s : State) (id : Nat) (f : PipeEntry → PipeEntry) : (s.updEntry id f).lockOwner = s.lockOwner := rfl
@[simp] theorem State.updEntry_devAlive (s : State) (id : Nat) (f : PipeEntry → PipeEntry) : (s.updEntry id f).devAlive = s.devAlive := rfl
@[simp] theorem State.updEntry_mem (s : State) (id : Nat) (f : PipeEntry → PipeEntry) : (s.updEntry id f).mem = s.mem := rfl
@[simp] theorem State.updEntry_allocs (s : State) (id : Nat) (f : PipeEntry → PipeEntry) : (s.updEntry id f).allocs = s.allocs := rfl
@[simp] theorem State.updEntry_draws (s : State) (id : Nat) (f : PipeEntry → PipeEntry) : (s.updEntry id f).draws = s.draws := rfl
@[simp] theorem State.updEntry_inputs (s : State) (id : Nat) (f : PipeEntry → PipeEntry) : (s.updEntry id f).inputs = s.inputs := rfl
@[simp] theorem State.updEntry_port (s : State) (id : Nat) (f : PipeEntry → PipeEntry) : (s.updEntry id f).port = s.port := rfl
@[simp] theorem State.updEntry_trace (s : State) (id : Nat) (f : PipeEntry → PipeEntry) : (s.updEntry id f).trace = s.trace := rfl
@[simp] theorem State.updEntry_nHosts (s : State) (id : Nat) (f : PipeEntry → PipeEntry) : (s.updEntry id f).nHosts = s.nHosts := rfl
@[simp] theorem State.updEntry_portAt (s : State) (id : Nat) (f : PipeEntry → PipeEntry) (j : Nat) : (s.updEntry id f).portAt j = s.portAt j := rfl
@[simp] theorem State.updEntry_cur (s : State) (id : Nat) (f : PipeEntry → PipeEntry) : (s.updEntry id f).cur = s.cur := rfl

/-! ### `State.setPipe` -/

@[simp] theorem State.setPipe_cfg (s : State) (id : Nat) (p : Pipe) : (s.setPipe id p).cfg = s.cfg := rfl
@[simp] theorem State.setPipe_ports (s : State) (id : Nat) (p : Pipe) : (s.setPipe id p).ports = s.ports := rfl
@[simp] theorem State.setPipe_lockOwner (s : State) (id : Nat) (p : Pipe) : (s.setPipe id p).lockOwner = s.lockOwner := rfl
@[simp] theorem State.setPipe_devAlive (s : State) (id : Nat) (p : Pipe) : (s.setPipe id p).devAlive = s.devAlive := rfl
@[simp] theorem State.setPipe_mem (s : State) (id : Nat) (p : Pipe) : (s.setPipe id p).mem = s.mem := rfl
@[simp] theorem State.setPipe_allocs (s : State) (id : Nat) (p : Pipe) : (s.setPipe id p).allocs = s.allocs := rfl
@[simp] theorem State.setPipe_draws (s : State) (id : Nat) (p : Pipe) : (s.setPipe id p).draws = s.draws := rfl
@[simp] theorem State.setPipe_inputs (s : State) (id : Nat) (p : Pipe) : (s.setPipe id p).inputs = s.inputs := rfl
@[simp] theorem State.setPipe_port (s : State) (id : Nat) (p : Pipe) : (s.setPipe id p).port = s.port := rfl
@[simp] theorem State.setPipe_trace (s : State) (id : Nat) (p : Pipe) : (s.setPipe id p).trace = s.trace := rfl
@[simp] theorem State.setPipe_nHosts (s : State) (id : Nat) (p : Pipe) : (s.setPipe id p).nHosts = s.nHosts := rfl
@[simp] theorem State.setPipe_portAt (s : State) (id : Nat) (p : Pipe) (j : Nat) : (s.setPipe id p).portAt j = s.portAt j := rfl
@[simp] theorem State.setPipe_cur (s : State) (id : Nat) (p : Pipe) : (s.setPipe id p).cur = s.cur := rfl

/-! ### `State.setSrc` -/

@[simp] theorem State.setSrc_cfg (s : State) (id : Nat) (r : SrcRing) : (s.setSrc id r).cfg = s.cfg := rfl
@[simp] theorem State.setSrc_ports (s : State) (id : Nat) (r : SrcRing) : (s.setSrc id r).ports = s.ports := rfl
@[simp] theorem State.setSrc_lockOwner (s : State) (id : Nat) (r : SrcRing) : (s.setSrc id r).lockOwner = s.lockOwner := rfl
@[simp] theorem State.setSrc_devAlive (s : State) (id : Nat) (r : SrcRing) : (s.setSrc id r).devAlive = s.devAlive := rfl
@[simp] theorem State.setSrc_mem (s : State) (id : Nat) (r : SrcRing) : (s.setSrc id r).mem = s.mem := rfl
@[simp] theorem State.setSrc_allocs (s : State) (id : Nat) (r : SrcRing) : (s.setSrc id r).allocs = s.allocs := rfl
@[simp] theorem State.setSrc_draws (s : State) (id : Nat) (r : SrcRing) : (s.setSrc id r).draws = s.draws := rfl
@[simp] theorem State.setSrc_inputs (s : State) (id : Nat) (r : SrcRing) : (s.setSrc id r).inputs = s.inputs := rfl
@[simp] theorem State.setSrc_port (s : State) (id : Nat) (r : SrcRing) : (s.setSrc id r).port = s.port := rfl
@[simp] theorem State.setSrc_trace (s : State) (id : Nat) (r : SrcRing) : (s.setSrc id r).trace = s.trace := rfl
@[simp] theorem State.setSrc_nHosts (s : State) (id : Nat) (r : SrcRing) : (s.setSrc id r).nHosts = s.nHosts := rfl
@[simp] theorem State.setSrc_portAt (s : State) (id : Nat) (r : SrcRing) (j : Nat) : (s.setSrc id r).portAt j = s.portAt j := rfl
@[simp] theorem State.setSrc_cur (s : State) (id : Nat) (r : SrcRing) : (s.setSrc id r).cur = s.cur := rfl

/-! ### `State.setDst` -/

@[simp] theorem State.setDst_cfg (s : State) (id : Nat) (r : Ring) : (s.setDst id r).cfg = s.cfg := rfl
@[simp] theorem State.setDst_ports (s : State) (id : Nat) (r : Ring) : (s.setDst id r).ports = s.ports := rfl
@[simp] theorem State.setDst_lockOwner (s : State) (id : Nat) (r : Ring) : (s.setDst id r).lockOwner = s.lockOwner := rfl
@[simp] theorem State.setDst_devAlive (s : State) (id : Nat) (r : Ring) : (s.setDst id r).devAlive = s.devAlive := rfl
@[simp] theorem State.setDst_mem (s : State) (id : Nat) (r : Ring) : (s.setDst id r).mem = s.mem := rfl
@[simp] theorem State.setDst_allocs (s : State) (id : Nat) (r : Ring) : (s.setDst id r).allocs = s.allocs := rfl
@[simp] theorem State.setDst_draws (s : State) (id : Nat) (r : Ring) : (s.setDst id r).draws = s.draws := rfl
@[simp] theorem State.setDst_inputs (s : State) (id : Nat) (r : Ring) : (s.setDst id r).inputs = s.inputs := rfl
@[simp] theorem State.setDst_port (s : State) (id : Nat) (r : Ring) : (s.setDst id r).port = s.port := rfl
@[simp] theorem State.setDst_trace (s : State) (id : Nat) (r : Ring) : (s.setDst id r).trace = s.trace := rfl
@[simp] theorem State.setDst_nHosts (s : State) (id : Nat) (r : Ring) : (s.setDst id r).nHosts = s.nHosts := rfl
@[simp] theorem State.setDst_portAt (s : State) (id : Nat) (r : Ring) (j : Nat) : (s.setDst id r).portAt j = s.portAt j := rfl
@[simp] theorem State.setDst_cur (s : State) (id : Nat) (r : Ring) : (s.setDst id r).cur = s.cur := rfl

/-! ### `State.setPhase` -/

@[simp] theorem State.setPhase_cfg (s : State) (id : Nat) (ph : Phase) : (s.setPhase id ph).cfg = s.cfg := rfl
@[simp] theorem State.setPhase_ports (s : State) (id : Nat) (ph : Phase) : (s.setPhase id ph).ports = s.ports := rfl
@[simp] theorem State.setPhase_lockOwner (s : State) (id : Nat) (ph : Phase) : (s.setPhase id ph).lockOwner = s.lockOwner := rfl
@[simp] theorem State.setPhase_devAlive (s : State) (id : Nat) (ph : Phase) : (s.setPhase id ph).devAlive = s.devAlive := rfl
@[simp] theorem State.setPhase_mem (s : State) (id : Nat) (ph : Phase) : (s.setPhase id ph).mem = s.mem := rfl
@[simp] theorem State.setPhase_allocs (s : State) (id : Nat) (ph : Phase) : (s.setPhase id ph).allocs = s.allocs := rfl
@[simp] theorem State.setPhase_draws (s : State) (id : Nat) (ph : Phase) : (s.setPhase id ph).draws = s.draws := rfl
@[simp] theorem State.setPhase_inputs (s : State) (id : Nat) (ph : Phase) : (s.setPhase id ph).inputs = s.inputs := rfl
@[simp] theorem State.setPhase_port (s : State) (id : Nat) (ph : Phase) : (s.setPhase id ph).port = s.port := rfl
@[simp] theorem State.setPhase_trace (s : State) (id : Nat) (ph : Phase) : (s.setPhase id ph).trace = s.trace := rfl
@[simp] theorem State.setPhase_nHosts (s : State) (id : Nat) (ph : Phase) : (s.setPhase id ph).nHosts = s.nHosts := rfl
@[simp] theorem State.setPhase_portAt (s : State) (id : Nat) (ph : Phase) (j : Nat) : (s.setPhase id ph).portAt j = s.portAt j := rfl
@[simp] theorem State.setPhase_cur (s : State) (id : Nat) (ph : Phase) : (s.setPhase id ph).cur = s.cur := rfl

/-! ### `State.deviceWrite` -/

@[simp] theorem State.deviceWrite_cfg (s : State) (id : Nat) (f : CtrlBlock → CtrlBlock) (g : DeviceState → DeviceState) : (s.deviceWrite id f g).cfg = s.cfg := rfl
@[simp] theorem State.deviceWrite_ports (s : State) (id : Nat) (f : CtrlBlock → CtrlBlock) (g : DeviceState → DeviceState) : (s.deviceWrite id f g).ports = s.ports := rfl
@[simp] theorem State.deviceWrite_lockOwner (s : State) (id : Nat) (f : CtrlBlock → CtrlBlock) (g : DeviceState → DeviceState) : (s.deviceWrite id f g).lockOwner = s.lockOwner := rfl
@[simp] theorem State.deviceWrite_devAlive (s : State) (id : Nat) (f : CtrlBlock → CtrlBlock) (g : DeviceState → DeviceState) : (s.deviceWrite id f g).devAlive = s.devAlive := rfl
@[simp] theorem State.deviceWrite_mem (s : State) (id : Nat) (f : CtrlBlock → CtrlBlock) (g : DeviceState → DeviceState) : (s.deviceWrite id f g).mem = s.mem := rfl
@[simp] theorem State.deviceWrite_allocs (s : State) (id : Nat) (f : CtrlBlock → CtrlBlock) (g : DeviceState → DeviceState) : (s.deviceWrite id f g).allocs = s.allocs := rfl
@[simp] theorem State.deviceWrite_draws (s : State) (id : Nat) (f : CtrlBlock → CtrlBlock) (g : DeviceState → DeviceState) : (s.deviceWrite id f g).draws = s.draws := rfl
@[simp] theorem State.deviceWrite_inputs (s : State) (id : Nat) (f : CtrlBlock → CtrlBlock) (g : DeviceState → DeviceState) : (s.deviceWrite id f g).inputs = s.inputs := rfl
@[simp] theorem State.deviceWrite_port (s : State) (id : Nat) (f : CtrlBlock → CtrlBlock) (g : DeviceState → DeviceState) : (s.deviceWrite id f g).port = s.port := rfl
@[simp] theorem State.deviceWrite_trace (s : State) (id : Nat) (f : CtrlBlock → CtrlBlock) (g : DeviceState → DeviceState) : (s.deviceWrite id f g).trace = s.trace := rfl
@[simp] theorem State.deviceWrite_nHosts (s : State) (id : Nat) (f : CtrlBlock → CtrlBlock) (g : DeviceState → DeviceState) : (s.deviceWrite id f g).nHosts = s.nHosts := rfl
@[simp] theorem State.deviceWrite_portAt (s : State) (id : Nat) (f : CtrlBlock → CtrlBlock) (g : DeviceState → DeviceState) (j : Nat) : (s.deviceWrite id f g).portAt j = s.portAt j := rfl
@[simp] theorem State.deviceWrite_cur (s : State) (id : Nat) (f : CtrlBlock → CtrlBlock) (g : DeviceState → DeviceState) : (s.deviceWrite id f g).cur = s.cur := rfl

/-! ### `State.setCur` -/

@[simp] theorem State.setCur_cfg (s : State) (p : Port) : (s.setCur p).cfg = s.cfg := rfl
@[simp] theorem State.setCur_pipes (s : State) (p : Port) : (s.setCur p).pipes = s.pipes := rfl
@[simp] theorem State.setCur_lockOwner (s : State) (p : Port) : (s.setCur p).lockOwner = s.lockOwner := rfl
@[simp] theorem State.setCur_devAlive (s : State) (p : Port) : (s.setCur p).devAlive = s.devAlive := rfl
@[simp] theorem State.setCur_mem (s : State) (p : Port) : (s.setCur p).mem = s.mem := rfl
@[simp] theorem State.setCur_allocs (s : State) (p : Port) : (s.setCur p).allocs = s.allocs := rfl
@[simp] theorem State.setCur_draws (s : State) (p : Port) : (s.setCur p).draws = s.draws := rfl
@[simp] theorem State.setCur_inputs (s : State) (p : Port) : (s.setCur p).inputs = s.inputs := rfl
@[simp] theorem State.setCur_port (s : State) (p : Port) : (s.setCur p).port = s.port := rfl
@[simp] theorem State.setCur_trace (s : State) (p : Port) : (s.setCur p).trace = s.trace := rfl
@[simp] theorem State.setCur_nPipes (s : State) (p : Port) : (s.setCur p).nPipes = s.nPipes := rfl
@[simp] theorem State.setCur_entry (s : State) (p : Port) (j : Nat) : (s.setCur p).entry j = s.entry j := rfl
@[simp] theorem State.setCur_pipe (s : State) (p : Port) (j : Nat) : (s.setCur p).pipe j = s.pipe j := rfl

/-! ### `State.setX1` -/

@[simp] theorem State.setX1_cfg (s : State) (v : Nat) : (s.setX1 v).cfg = s.cfg := rfl
@[simp] theorem State.setX1_pipes (s : State) (v : Nat) : (s.setX1 v).pipes = s.pipes := rfl
@[simp] theorem State.setX1_lockOwner (s : State) (v : Nat) : (s.setX1 v).lockOwner = s.lockOwner := rfl
@[simp] theorem State.setX1_devAlive (s : State) (v : Nat) : (s.setX1 v).devAlive = s.devAlive := rfl
@[simp] theorem State.setX1_mem (s : State) (v : Nat) : (s.setX1 v).mem = s.mem := rfl
@[simp] theorem State.setX1_allocs (s : State) (v : Nat) : (s.setX1 v).allocs = s.allocs := rfl
@[simp] theorem State.setX1_draws (s : State) (v : Nat) : (s.setX1 v).draws = s.draws := rfl
@[simp] theorem State.setX1_inputs (s : State) (v : Nat) : (s.setX1 v).inputs = s.inputs := rfl
@[simp] theorem State.setX1_port (s : State) (v : Nat) : (s.setX1 v).port = s.port := rfl
@[simp] theorem State.setX1_trace (s : State) (v : Nat) : (s.setX1 v).trace = s.trace := rfl
@[simp] theorem State.setX1_nPipes (s : State) (v : Nat) : (s.setX1 v).nPipes = s.nPipes := rfl
@[simp] theorem State.setX1_entry (s : State) (v : Nat) (j : Nat) : (s.setX1 v).entry j = s.entry j := rfl
@[simp] theorem State.setX1_pipe (s : State) (v : Nat) (j : Nat) : (s.setX1 v).pipe j = s.pipe j := rfl

/-! ### `State.setX2` -/

@[simp] theorem State.setX2_cfg (s : State) (v : Nat) : (s.setX2 v).cfg = s.cfg := rfl
@[simp] theorem State.setX2_pipes (s : State) (v : Nat) : (s.setX2 v).pipes = s.pipes := rfl
@[simp] theorem State.setX2_lockOwner (s : State) (v : Nat) : (s.setX2 v).lockOwner = s.lockOwner := rfl
@[simp] theorem State.setX2_devAlive (s : State) (v : Nat) : (s.setX2 v).devAlive = s.devAlive := rfl
@[simp] theorem State.setX2_mem (s : State) (v : Nat) : (s.setX2 v).mem = s.mem := rfl
@[simp] theorem State.setX2_allocs (s : State) (v : Nat) : (s.setX2 v).allocs = s.allocs := rfl
@[simp] theorem State.setX2_draws (s : State) (v : Nat) : (s.setX2 v).draws = s.draws := rfl
@[simp] theorem State.setX2_inputs (s : State) (v : Nat) : (s.setX2 v).inputs = s.inputs := rfl
@[simp] theorem State.setX2_port (s : State) (v : Nat) : (s.setX2 v).port = s.port := rfl
@[simp] theorem State.setX2_trace (s : State) (v : Nat) : (s.setX2 v).trace = s.trace := rfl
@[simp] theorem State.setX2_nPipes (s : State) (v : Nat) : (s.setX2 v).nPipes = s.nPipes := rfl
@[simp] theorem State.setX2_entry (s : State) (v : Nat) (j : Nat) : (s.setX2 v).entry j = s.entry j := rfl
@[simp] theorem State.setX2_pipe (s : State) (v : Nat) (j : Nat) : (s.setX2 v).pipe j = s.pipe j := rfl

/-! ### `State.setX3` -/

@[simp] theorem State.setX3_cfg (s : State) (v : Nat) : (s.setX3 v).cfg = s.cfg := rfl
@[simp] theorem State.setX3_pipes (s : State) (v : Nat) : (s.setX3 v).pipes = s.pipes := rfl
@[simp] theorem State.setX3_lockOwner (s : State) (v : Nat) : (s.setX3 v).lockOwner = s.lockOwner := rfl
@[simp] theorem State.setX3_devAlive (s : State) (v : Nat) : (s.setX3 v).devAlive = s.devAlive := rfl
@[simp] theorem State.setX3_mem (s : State) (v : Nat) : (s.setX3 v).mem = s.mem := rfl
@[simp] theorem State.setX3_allocs (s : State) (v : Nat) : (s.setX3 v).allocs = s.allocs := rfl
@[simp] theorem State.setX3_draws (s : State) (v : Nat) : (s.setX3 v).draws = s.draws := rfl
@[simp] theorem State.setX3_inputs (s : State) (v : Nat) : (s.setX3 v).inputs = s.inputs := rfl
@[simp] theorem State.setX3_port (s : State) (v : Nat) : (s.setX3 v).port = s.port := rfl
@[simp] theorem State.setX3_trace (s : State) (v : Nat) : (s.setX3 v).trace = s.trace := rfl
@[simp] theorem State.setX3_nPipes (s : State) (v : Nat) : (s.setX3 v).nPipes = s.nPipes := rfl
@[simp] theorem State.setX3_entry (s : State) (v : Nat) (j : Nat) : (s.setX3 v).entry j = s.entry j := rfl
@[simp] theorem State.setX3_pipe (s : State) (v : Nat) (j : Nat) : (s.setX3 v).pipe j = s.pipe j := rfl

/-! ### `State.setX4` -/

@[simp] theorem State.setX4_cfg (s : State) (v : Nat) : (s.setX4 v).cfg = s.cfg := rfl
@[simp] theorem State.setX4_pipes (s : State) (v : Nat) : (s.setX4 v).pipes = s.pipes := rfl
@[simp] theorem State.setX4_lockOwner (s : State) (v : Nat) : (s.setX4 v).lockOwner = s.lockOwner := rfl
@[simp] theorem State.setX4_devAlive (s : State) (v : Nat) : (s.setX4 v).devAlive = s.devAlive := rfl
@[simp] theorem State.setX4_mem (s : State) (v : Nat) : (s.setX4 v).mem = s.mem := rfl
@[simp] theorem State.setX4_allocs (s : State) (v : Nat) : (s.setX4 v).allocs = s.allocs := rfl
@[simp] theorem State.setX4_draws (s : State) (v : Nat) : (s.setX4 v).draws = s.draws := rfl
@[simp] theorem State.setX4_inputs (s : State) (v : Nat) : (s.setX4 v).inputs = s.inputs := rfl
@[simp] theorem State.setX4_port (s : State) (v : Nat) : (s.setX4 v).port = s.port := rfl
@[simp] theorem State.setX4_trace (s : State) (v : Nat) : (s.setX4 v).trace = s.trace := rfl
@[simp] theorem State.setX4_nPipes (s : State) (v : Nat) : (s.setX4 v).nPipes = s.nPipes := rfl
@[simp] theorem State.setX4_entry (s : State) (v : Nat) (j : Nat) : (s.setX4 v).entry j = s.entry j := rfl
@[simp] theorem State.setX4_pipe (s : State) (v : Nat) (j : Nat) : (s.setX4 v).pipe j = s.pipe j := rfl

/-! ### `State.setSvc` -/

@[simp] theorem State.setSvc_cfg (s : State) (v : Option Svc) : (s.setSvc v).cfg = s.cfg := rfl
@[simp] theorem State.setSvc_pipes (s : State) (v : Option Svc) : (s.setSvc v).pipes = s.pipes := rfl
@[simp] theorem State.setSvc_lockOwner (s : State) (v : Option Svc) : (s.setSvc v).lockOwner = s.lockOwner := rfl
@[simp] theorem State.setSvc_devAlive (s : State) (v : Option Svc) : (s.setSvc v).devAlive = s.devAlive := rfl
@[simp] theorem State.setSvc_mem (s : State) (v : Option Svc) : (s.setSvc v).mem = s.mem := rfl
@[simp] theorem State.setSvc_allocs (s : State) (v : Option Svc) : (s.setSvc v).allocs = s.allocs := rfl
@[simp] theorem State.setSvc_draws (s : State) (v : Option Svc) : (s.setSvc v).draws = s.draws := rfl
@[simp] theorem State.setSvc_inputs (s : State) (v : Option Svc) : (s.setSvc v).inputs = s.inputs := rfl
@[simp] theorem State.setSvc_port (s : State) (v : Option Svc) : (s.setSvc v).port = s.port := rfl
@[simp] theorem State.setSvc_trace (s : State) (v : Option Svc) : (s.setSvc v).trace = s.trace := rfl
@[simp] theorem State.setSvc_nPipes (s : State) (v : Option Svc) : (s.setSvc v).nPipes = s.nPipes := rfl
@[simp] theorem State.setSvc_entry (s : State) (v : Option Svc) (j : Nat) : (s.setSvc v).entry j = s.entry j := rfl
@[simp] theorem State.setSvc_pipe (s : State) (v : Option Svc) (j : Nat) : (s.setSvc v).pipe j = s.pipe j := rfl

/-! ### `State.park` -/

@[simp] theorem State.park_cfg (s : State) (i : Instr) : (s.park i).cfg = s.cfg := rfl
@[simp] theorem State.park_pipes (s : State) (i : Instr) : (s.park i).pipes = s.pipes := rfl
@[simp] theorem State.park_lockOwner (s : State) (i : Instr) : (s.park i).lockOwner = s.lockOwner := rfl
@[simp] theorem State.park_devAlive (s : State) (i : Instr) : (s.park i).devAlive = s.devAlive := rfl
@[simp] theorem State.park_mem (s : State) (i : Instr) : (s.park i).mem = s.mem := rfl
@[simp] theorem State.park_allocs (s : State) (i : Instr) : (s.park i).allocs = s.allocs := rfl
@[simp] theorem State.park_draws (s : State) (i : Instr) : (s.park i).draws = s.draws := rfl
@[simp] theorem State.park_inputs (s : State) (i : Instr) : (s.park i).inputs = s.inputs := rfl
@[simp] theorem State.park_port (s : State) (i : Instr) : (s.park i).port = s.port := rfl
@[simp] theorem State.park_trace (s : State) (i : Instr) : (s.park i).trace = s.trace := rfl
@[simp] theorem State.park_nPipes (s : State) (i : Instr) : (s.park i).nPipes = s.nPipes := rfl
@[simp] theorem State.park_entry (s : State) (i : Instr) (j : Nat) : (s.park i).entry j = s.entry j := rfl
@[simp] theorem State.park_pipe (s : State) (i : Instr) (j : Nat) : (s.park i).pipe j = s.pipe j := rfl

/-! ### `State.returnStatus` -/

@[simp] theorem State.returnStatus_cfg (s : State) (st : Status) : (s.returnStatus st).cfg = s.cfg := rfl
@[simp] theorem State.returnStatus_pipes (s : State) (st : Status) : (s.returnStatus st).pipes = s.pipes := rfl
@[simp] theorem State.returnStatus_lockOwner (s : State) (st : Status) : (s.returnStatus st).lockOwner = s.lockOwner := rfl
@[simp] theorem State.returnStatus_devAlive (s : State) (st : Status) : (s.returnStatus st).devAlive = s.devAlive := rfl
@[simp] theorem State.returnStatus_mem (s : State) (st : Status) : (s.returnStatus st).mem = s.mem := rfl
@[simp] theorem State.returnStatus_allocs (s : State) (st : Status) : (s.returnStatus st).allocs = s.allocs := rfl
@[simp] theorem State.returnStatus_draws (s : State) (st : Status) : (s.returnStatus st).draws = s.draws := rfl
@[simp] theorem State.returnStatus_inputs (s : State) (st : Status) : (s.returnStatus st).inputs = s.inputs := rfl
@[simp] theorem State.returnStatus_port (s : State) (st : Status) : (s.returnStatus st).port = s.port := rfl
@[simp] theorem State.returnStatus_trace (s : State) (st : Status) : (s.returnStatus st).trace = s.trace := rfl
@[simp] theorem State.returnStatus_nPipes (s : State) (st : Status) : (s.returnStatus st).nPipes = s.nPipes := rfl
@[simp] theorem State.returnStatus_entry (s : State) (st : Status) (j : Nat) : (s.returnStatus st).entry j = s.entry j := rfl
@[simp] theorem State.returnStatus_pipe (s : State) (st : Status) (j : Nat) : (s.returnStatus st).pipe j = s.pipe j := rfl

/-! ### `State.emit` -/

@[simp] theorem State.emit_cfg (s : State) (e : Event) : (s.emit e).cfg = s.cfg := rfl
@[simp] theorem State.emit_pipes (s : State) (e : Event) : (s.emit e).pipes = s.pipes := rfl
@[simp] theorem State.emit_ports (s : State) (e : Event) : (s.emit e).ports = s.ports := rfl
@[simp] theorem State.emit_lockOwner (s : State) (e : Event) : (s.emit e).lockOwner = s.lockOwner := rfl
@[simp] theorem State.emit_devAlive (s : State) (e : Event) : (s.emit e).devAlive = s.devAlive := rfl
@[simp] theorem State.emit_mem (s : State) (e : Event) : (s.emit e).mem = s.mem := rfl
@[simp] theorem State.emit_allocs (s : State) (e : Event) : (s.emit e).allocs = s.allocs := rfl
@[simp] theorem State.emit_draws (s : State) (e : Event) : (s.emit e).draws = s.draws := rfl
@[simp] theorem State.emit_inputs (s : State) (e : Event) : (s.emit e).inputs = s.inputs := rfl
@[simp] theorem State.emit_port (s : State) (e : Event) : (s.emit e).port = s.port := rfl
@[simp] theorem State.emit_trace (s : State) (e : Event) : (s.emit e).trace = e :: s.trace := rfl
@[simp] theorem State.emit_nPipes (s : State) (e : Event) : (s.emit e).nPipes = s.nPipes := rfl
@[simp] theorem State.emit_nHosts (s : State) (e : Event) : (s.emit e).nHosts = s.nHosts := rfl
@[simp] theorem State.emit_entry (s : State) (e : Event) (j : Nat) : (s.emit e).entry j = s.entry j := rfl
@[simp] theorem State.emit_pipe (s : State) (e : Event) (j : Nat) : (s.emit e).pipe j = s.pipe j := rfl
@[simp] theorem State.emit_portAt (s : State) (e : Event) (j : Nat) : (s.emit e).portAt j = s.portAt j := rfl
@[simp] theorem State.emit_cur (s : State) (e : Event) : (s.emit e).cur = s.cur := rfl

/-! ### `State.warn` -/

@[simp] theorem State.warn_cfg (s : State) (k : WarnKind) (id : Nat) : (s.warn k id).cfg = s.cfg := rfl
@[simp] theorem State.warn_pipes (s : State) (k : WarnKind) (id : Nat) : (s.warn k id).pipes = s.pipes := rfl
@[simp] theorem State.warn_ports (s : State) (k : WarnKind) (id : Nat) : (s.warn k id).ports = s.ports := rfl
@[simp] theorem State.warn_lockOwner (s : State) (k : WarnKind) (id : Nat) : (s.warn k id).lockOwner = s.lockOwner := rfl
@[simp] theorem State.warn_devAlive (s : State) (k : WarnKind) (id : Nat) : (s.warn k id).devAlive = s.devAlive := rfl
@[simp] theorem State.warn_mem (s : State) (k : WarnKind) (id : Nat) : (s.warn k id).mem = s.mem := rfl
@[simp] theorem State.warn_allocs (s : State) (k : WarnKind) (id : Nat) : (s.warn k id).allocs = s.allocs := rfl
@[simp] theorem State.warn_draws (s : State) (k : WarnKind) (id : Nat) : (s.warn k id).draws = s.draws := rfl
@[simp] theorem State.warn_inputs (s : State) (k : WarnKind) (id : Nat) : (s.warn k id).inputs = s.inputs := rfl
@[simp] theorem State.warn_port (s : State) (k : WarnKind) (id : Nat) : (s.warn k id).port = s.port := rfl
@[simp] theorem State.warn_trace (s : State) (k : WarnKind) (id : Nat) : (s.warn k id).trace = .warn k s.port id :: s.trace := rfl
@[simp] theorem State.warn_nPipes (s : State) (k : WarnKind) (id : Nat) : (s.warn k id).nPipes = s.nPipes := rfl
@[simp] theorem State.warn_nHosts (s : State) (k : WarnKind) (id : Nat) : (s.warn k id).nHosts = s.nHosts := rfl
@[simp] theorem State.warn_entry (s : State) (k : WarnKind) (id : Nat) (j : Nat) : (s.warn k id).entry j = s.entry j := rfl
@[simp] theorem State.warn_pipe (s : State) (k : WarnKind) (id : Nat) (j : Nat) : (s.warn k id).pipe j = s.pipe j := rfl
@[simp] theorem State.warn_portAt (s : State) (k : WarnKind) (id : Nat) (j : Nat) : (s.warn k id).portAt j = s.portAt j := rfl
@[simp] theorem State.warn_cur (s : State) (k : WarnKind) (id : Nat) : (s.warn k id).cur = s.cur := rfl

/-! ### `State.noteRead` -/

@[simp] theorem State.noteRead_cfg (s : State) (r : RegId) : (s.noteRead r).cfg = s.cfg := rfl
@[simp] theorem State.noteRead_pipes (s : State) (r : RegId) : (s.noteRead r).pipes = s.pipes := rfl
@[simp] theorem State.noteRead_ports (s : State) (r : RegId) : (s.noteRead r).ports = s.ports := rfl
@[simp] theorem State.noteRead_lockOwner (s : State) (r : RegId) : (s.noteRead r).lockOwner = s.lockOwner := rfl
@[simp] theorem State.noteRead_devAlive (s : State) (r : RegId) : (s.noteRead r).devAlive = s.devAlive := rfl
@[simp] theorem State.noteRead_mem (s : State) (r : RegId) : (s.noteRead r).mem = s.mem := rfl
@[simp] theorem State.noteRead_allocs (s : State) (r : RegId) : (s.noteRead r).allocs = s.allocs := rfl
@[simp] theorem State.noteRead_draws (s : State) (r : RegId) : (s.noteRead r).draws = s.draws := rfl
@[simp] theorem State.noteRead_inputs (s : State) (r : RegId) : (s.noteRead r).inputs = s.inputs := rfl
@[simp] theorem State.noteRead_port (s : State) (r : RegId) : (s.noteRead r).port = s.port := rfl
@[simp] theorem State.noteRead_trace (s : State) (r : RegId) : (s.noteRead r).trace = .regRead (s.regAddr r) (s.regRead r) :: s.trace := rfl
@[simp] theorem State.noteRead_nPipes (s : State) (r : RegId) : (s.noteRead r).nPipes = s.nPipes := rfl
@[simp] theorem State.noteRead_nHosts (s : State) (r : RegId) : (s.noteRead r).nHosts = s.nHosts := rfl
@[simp] theorem State.noteRead_entry (s : State) (r : RegId) (j : Nat) : (s.noteRead r).entry j = s.entry j := rfl
@[simp] theorem State.noteRead_pipe (s : State) (r : RegId) (j : Nat) : (s.noteRead r).pipe j = s.pipe j := rfl
@[simp] theorem State.noteRead_portAt (s : State) (r : RegId) (j : Nat) : (s.noteRead r).portAt j = s.portAt j := rfl
@[simp] theorem State.noteRead_cur (s : State) (r : RegId) : (s.noteRead r).cur = s.cur := rfl

/-! ### `State.barrier` -/

@[simp] theorem State.barrier_cfg (s : State) : (s.barrier).cfg = s.cfg := rfl
@[simp] theorem State.barrier_pipes (s : State) : (s.barrier).pipes = s.pipes := rfl
@[simp] theorem State.barrier_ports (s : State) : (s.barrier).ports = s.ports := rfl
@[simp] theorem State.barrier_lockOwner (s : State) : (s.barrier).lockOwner = s.lockOwner := rfl
@[simp] theorem State.barrier_devAlive (s : State) : (s.barrier).devAlive = s.devAlive := rfl
@[simp] theorem State.barrier_mem (s : State) : (s.barrier).mem = s.mem := rfl
@[simp] theorem State.barrier_allocs (s : State) : (s.barrier).allocs = s.allocs := rfl
@[simp] theorem State.barrier_draws (s : State) : (s.barrier).draws = s.draws := rfl
@[simp] theorem State.barrier_inputs (s : State) : (s.barrier).inputs = s.inputs := rfl
@[simp] theorem State.barrier_port (s : State) : (s.barrier).port = s.port := rfl
@[simp] theorem State.barrier_trace (s : State) : (s.barrier).trace = .barrier :: s.trace := rfl
@[simp] theorem State.barrier_nPipes (s : State) : (s.barrier).nPipes = s.nPipes := rfl
@[simp] theorem State.barrier_nHosts (s : State) : (s.barrier).nHosts = s.nHosts := rfl
@[simp] theorem State.barrier_entry (s : State) (j : Nat) : (s.barrier).entry j = s.entry j := rfl
@[simp] theorem State.barrier_pipe (s : State) (j : Nat) : (s.barrier).pipe j = s.pipe j := rfl
@[simp] theorem State.barrier_portAt (s : State) (j : Nat) : (s.barrier).portAt j = s.portAt j := rfl
@[simp] theorem State.barrier_cur (s : State) : (s.barrier).cur = s.cur := rfl

/-! ### `State.memWrite` -/

@[simp] theorem State.memWrite_cfg (s : State) (a : Nat) (v : U32) : (s.memWrite a v).cfg = s.cfg := rfl
@[simp] theorem State.memWrite_pipes (s : State) (a : Nat) (v : U32) : (s.memWrite a v).pipes = s.pipes := rfl
@[simp] theorem State.memWrite_ports (s : State) (a : Nat) (v : U32) : (s.memWrite a v).ports = s.ports := rfl
@[simp] theorem State.memWrite_lockOwner (s : State) (a : Nat) (v : U32) : (s.memWrite a v).lockOwner = s.lockOwner := rfl
@[simp] theorem State.memWrite_devAlive (s : State) (a : Nat) (v : U32) : (s.memWrite a v).devAlive = s.devAlive := rfl
@[simp] theorem State.memWrite_mem (s : State) (a : Nat) (v : U32) : (s.memWrite a v).mem = Memory.write4 s.mem a v := rfl
@[simp] theorem State.memWrite_allocs (s : State) (a : Nat) (v : U32) : (s.memWrite a v).allocs = s.allocs := rfl
@[simp] theorem State.memWrite_draws (s : State) (a : Nat) (v : U32) : (s.memWrite a v).draws = s.draws := rfl
@[simp] theorem State.memWrite_inputs (s : State) (a : Nat) (v : U32) : (s.memWrite a v).inputs = s.inputs := rfl
@[simp] theorem State.memWrite_port (s : State) (a : Nat) (v : U32) : (s.memWrite a v).port = s.port := rfl
@[simp] theorem State.memWrite_trace (s : State) (a : Nat) (v : U32) : (s.memWrite a v).trace = .memWrite a v :: s.trace := rfl
@[simp] theorem State.memWrite_nPipes (s : State) (a : Nat) (v : U32) : (s.memWrite a v).nPipes = s.nPipes := rfl
@[simp] theorem State.memWrite_nHosts (s : State) (a : Nat) (v : U32) : (s.memWrite a v).nHosts = s.nHosts := rfl
@[simp] theorem State.memWrite_entry (s : State) (a : Nat) (v : U32) (j : Nat) : (s.memWrite a v).entry j = s.entry j := rfl
@[simp] theorem State.memWrite_pipe (s : State) (a : Nat) (v : U32) (j : Nat) : (s.memWrite a v).pipe j = s.pipe j := rfl
@[simp] theorem State.memWrite_portAt (s : State) (a : Nat) (v : U32) (j : Nat) : (s.memWrite a v).portAt j = s.portAt j := rfl
@[simp] theorem State.memWrite_cur (s : State) (a : Nat) (v : U32) : (s.memWrite a v).cur = s.cur := rfl

/-! ### `State.zeroRing` -/

@[simp] theorem State.zeroRing_cfg (s : State) (r : Ring) : (s.zeroRing r).cfg = s.cfg := rfl
@[simp] theorem State.zeroRing_pipes (s : State) (r : Ring) : (s.zeroRing r).pipes = s.pipes := rfl
@[simp] theorem State.zeroRing_ports (s : State) (r : Ring) : (s.zeroRing r).ports = s.ports := rfl
@[simp] theorem State.zeroRing_lockOwner (s : State) (r : Ring) : (s.zeroRing r).lockOwner = s.lockOwner := rfl
@[simp] theorem State.zeroRing_devAlive (s : State) (r : Ring) : (s.zeroRing r).devAlive = s.devAlive := rfl
@[simp] theorem State.zeroRing_mem (s : State) (r : Ring) : (s.zeroRing r).mem = Memory.zero s.mem r.base.toNat r.bytes := rfl
@[simp] theorem State.zeroRing_allocs (s : State) (r : Ring) : (s.zeroRing r).allocs = s.allocs := rfl
@[simp] theorem State.zeroRing_draws (s : State) (r : Ring) : (s.zeroRing r).draws = s.draws := rfl
@[simp] theorem State.zeroRing_inputs (s : State) (r : Ring) : (s.zeroRing r).inputs = s.inputs := rfl
@[simp] theorem State.zeroRing_port (s : State) (r : Ring) : (s.zeroRing r).port = s.port := rfl
@[simp] theorem State.zeroRing_trace (s : State) (r : Ring) : (s.zeroRing r).trace = .memZero r.base.toNat r.bytes :: s.trace := rfl
@[simp] theorem State.zeroRing_nPipes (s : State) (r : Ring) : (s.zeroRing r).nPipes = s.nPipes := rfl
@[simp] theorem State.zeroRing_nHosts (s : State) (r : Ring) : (s.zeroRing r).nHosts = s.nHosts := rfl
@[simp] theorem State.zeroRing_entry (s : State) (r : Ring) (j : Nat) : (s.zeroRing r).entry j = s.entry j := rfl
@[simp] theorem State.zeroRing_pipe (s : State) (r : Ring) (j : Nat) : (s.zeroRing r).pipe j = s.pipe j := rfl
@[simp] theorem State.zeroRing_portAt (s : State) (r : Ring) (j : Nat) : (s.zeroRing r).portAt j = s.portAt j := rfl
@[simp] theorem State.zeroRing_cur (s : State) (r : Ring) : (s.zeroRing r).cur = s.cur := rfl

/-! ### `State.acquire` -/

@[simp] theorem State.acquire_cfg (s : State) : (s.acquire).cfg = s.cfg := rfl
@[simp] theorem State.acquire_pipes (s : State) : (s.acquire).pipes = s.pipes := rfl
@[simp] theorem State.acquire_ports (s : State) : (s.acquire).ports = s.ports := rfl
@[simp] theorem State.acquire_lockOwner (s : State) : (s.acquire).lockOwner = some s.port := rfl
@[simp] theorem State.acquire_devAlive (s : State) : (s.acquire).devAlive = s.devAlive := rfl
@[simp] theorem State.acquire_mem (s : State) : (s.acquire).mem = s.mem := rfl
@[simp] theorem State.acquire_allocs (s : State) : (s.acquire).allocs = s.allocs := rfl
@[simp] theorem State.acquire_draws (s : State) : (s.acquire).draws = s.draws := rfl
@[simp] theorem State.acquire_inputs (s : State) : (s.acquire).inputs = s.inputs := rfl
@[simp] theorem State.acquire_port (s : State) : (s.acquire).port = s.port := rfl
@[simp] theorem State.acquire_trace (s : State) : (s.acquire).trace = s.trace := rfl
@[simp] theorem State.acquire_nPipes (s : State) : (s.acquire).nPipes = s.nPipes := rfl
@[simp] theorem State.acquire_nHosts (s : State) : (s.acquire).nHosts = s.nHosts := rfl
@[simp] theorem State.acquire_entry (s : State) (j : Nat) : (s.acquire).entry j = s.entry j := rfl
@[simp] theorem State.acquire_pipe (s : State) (j : Nat) : (s.acquire).pipe j = s.pipe j := rfl
@[simp] theorem State.acquire_portAt (s : State) (j : Nat) : (s.acquire).portAt j = s.portAt j := rfl
@[simp] theorem State.acquire_cur (s : State) : (s.acquire).cur = s.cur := rfl

/-! ### `State.release` -/

@[simp] theorem State.release_cfg (s : State) : (s.release).cfg = s.cfg := rfl
@[simp] theorem State.release_pipes (s : State) : (s.release).pipes = s.pipes := rfl
@[simp] theorem State.release_ports (s : State) : (s.release).ports = s.ports := rfl
@[simp] theorem State.release_lockOwner (s : State) : (s.release).lockOwner = none := rfl
@[simp] theorem State.release_devAlive (s : State) : (s.release).devAlive = s.devAlive := rfl
@[simp] theorem State.release_mem (s : State) : (s.release).mem = s.mem := rfl
@[simp] theorem State.release_allocs (s : State) : (s.release).allocs = s.allocs := rfl
@[simp] theorem State.release_draws (s : State) : (s.release).draws = s.draws := rfl
@[simp] theorem State.release_inputs (s : State) : (s.release).inputs = s.inputs := rfl
@[simp] theorem State.release_port (s : State) : (s.release).port = s.port := rfl
@[simp] theorem State.release_trace (s : State) : (s.release).trace = s.trace := rfl
@[simp] theorem State.release_nPipes (s : State) : (s.release).nPipes = s.nPipes := rfl
@[simp] theorem State.release_nHosts (s : State) : (s.release).nHosts = s.nHosts := rfl
@[simp] theorem State.release_entry (s : State) (j : Nat) : (s.release).entry j = s.entry j := rfl
@[simp] theorem State.release_pipe (s : State) (j : Nat) : (s.release).pipe j = s.pipe j := rfl
@[simp] theorem State.release_portAt (s : State) (j : Nat) : (s.release).portAt j = s.portAt j := rfl
@[simp] theorem State.release_cur (s : State) : (s.release).cur = s.cur := rfl

/-! ### `State.onPort` -/

@[simp] theorem State.onPort_cfg (s : State) (h : Nat) : (s.onPort h).cfg = s.cfg := rfl
@[simp] theorem State.onPort_pipes (s : State) (h : Nat) : (s.onPort h).pipes = s.pipes := rfl
@[simp] theorem State.onPort_ports (s : State) (h : Nat) : (s.onPort h).ports = s.ports := rfl
@[simp] theorem State.onPort_lockOwner (s : State) (h : Nat) : (s.onPort h).lockOwner = s.lockOwner := rfl
@[simp] theorem State.onPort_devAlive (s : State) (h : Nat) : (s.onPort h).devAlive = s.devAlive := rfl
@[simp] theorem State.onPort_mem (s : State) (h : Nat) : (s.onPort h).mem = s.mem := rfl
@[simp] theorem State.onPort_allocs (s : State) (h : Nat) : (s.onPort h).allocs = s.allocs := rfl
@[simp] theorem State.onPort_draws (s : State) (h : Nat) : (s.onPort h).draws = s.draws := rfl
@[simp] theorem State.onPort_inputs (s : State) (h : Nat) : (s.onPort h).inputs = s.inputs := rfl
@[simp] theorem State.onPort_port (s : State) (h : Nat) : (s.onPort h).port = h := rfl
@[simp] theorem State.onPort_trace (s : State) (h : Nat) : (s.onPort h).trace = s.trace := rfl
@[simp] theorem State.onPort_nPipes (s : State) (h : Nat) : (s.onPort h).nPipes = s.nPipes := rfl
@[simp] theorem State.onPort_nHosts (s : State) (h : Nat) : (s.onPort h).nHosts = s.nHosts := rfl
@[simp] theorem State.onPort_entry (s : State) (h : Nat) (j : Nat) : (s.onPort h).entry j = s.entry j := rfl
@[simp] theorem State.onPort_pipe (s : State) (h : Nat) (j : Nat) : (s.onPort h).pipe j = s.pipe j := rfl
@[simp] theorem State.onPort_portAt (s : State) (h : Nat) (j : Nat) : (s.onPort h).portAt j = s.portAt j := rfl

/-! ### `State.leave` -/

@[simp] theorem State.leave_cfg (s : State) (nl : Bool) : (s.leave nl).cfg = s.cfg := by cases nl <;> rfl
@[simp] theorem State.leave_pipes (s : State) (nl : Bool) : (s.leave nl).pipes = s.pipes := by cases nl <;> rfl
@[simp] theorem State.leave_ports (s : State) (nl : Bool) : (s.leave nl).ports = s.ports := by cases nl <;> rfl
@[simp] theorem State.leave_lockOwner (s : State) (nl : Bool) : (s.leave nl).lockOwner = if nl then s.lockOwner else none := by cases nl <;> rfl
@[simp] theorem State.leave_devAlive (s : State) (nl : Bool) : (s.leave nl).devAlive = s.devAlive := by cases nl <;> rfl
@[simp] theorem State.leave_mem (s : State) (nl : Bool) : (s.leave nl).mem = s.mem := by cases nl <;> rfl
@[simp] theorem State.leave_allocs (s : State) (nl : Bool) : (s.leave nl).allocs = s.allocs := by cases nl <;> rfl
@[simp] theorem State.leave_draws (s : State) (nl : Bool) : (s.leave nl).draws = s.draws := by cases nl <;> rfl
@[simp] theorem State.leave_inputs (s : State) (nl : Bool) : (s.leave nl).inputs = s.inputs := by cases nl <;> rfl
@[simp] theorem State.leave_port (s : State) (nl : Bool) : (s.leave nl).port = s.port := by cases nl <;> rfl
@[simp] theorem State.leave_trace (s : State) (nl : Bool) : (s.leave nl).trace = s.trace := by cases nl <;> rfl
@[simp] theorem State.leave_nPipes (s : State) (nl : Bool) : (s.leave nl).nPipes = s.nPipes := by cases nl <;> rfl
@[simp] theorem State.leave_nHosts (s : State) (nl : Bool) : (s.leave nl).nHosts = s.nHosts := by cases nl <;> rfl
@[simp] theorem State.leave_entry (s : State) (nl : Bool) (j : Nat) : (s.leave nl).entry j = s.entry j := by cases nl <;> rfl
@[simp] theorem State.leave_pipe (s : State) (nl : Bool) (j : Nat) : (s.leave nl).pipe j = s.pipe j := by cases nl <;> rfl
@[simp] theorem State.leave_portAt (s : State) (nl : Bool) (j : Nat) : (s.leave nl).portAt j = s.portAt j := by cases nl <;> rfl
@[simp] theorem State.leave_cur (s : State) (nl : Bool) : (s.leave nl).cur = s.cur := by cases nl <;> rfl

/-! ### `State.finish` -/

@[simp] theorem State.finish_cfg (s : State) (nl : Bool) (st : Status) : (s.finish nl st).cfg = s.cfg := by cases nl <;> rfl
@[simp] theorem State.finish_pipes (s : State) (nl : Bool) (st : Status) : (s.finish nl st).pipes = s.pipes := by cases nl <;> rfl
@[simp] theorem State.finish_lockOwner (s : State) (nl : Bool) (st : Status) : (s.finish nl st).lockOwner = if nl then s.lockOwner else none := by cases nl <;> rfl
@[simp] theorem State.finish_devAlive (s : State) (nl : Bool) (st : Status) : (s.finish nl st).devAlive = s.devAlive := by cases nl <;> rfl
@[simp] theorem State.finish_mem (s : State) (nl : Bool) (st : Status) : (s.finish nl st).mem = s.mem := by cases nl <;> rfl
@[simp] theorem State.finish_allocs (s : State) (nl : Bool) (st : Status) : (s.finish nl st).allocs = s.allocs := by cases nl <;> rfl
@[simp] theorem State.finish_draws (s : State) (nl : Bool) (st : Status) : (s.finish nl st).draws = s.draws := by cases nl <;> rfl
@[simp] theorem State.finish_inputs (s : State) (nl : Bool) (st : Status) : (s.finish nl st).inputs = s.inputs := by cases nl <;> rfl
@[simp] theorem State.finish_port (s : State) (nl : Bool) (st : Status) : (s.finish nl st).port = s.port := by cases nl <;> rfl
@[simp] theorem State.finish_trace (s : State) (nl : Bool) (st : Status) : (s.finish nl st).trace = s.trace := by cases nl <;> rfl
@[simp] theorem State.finish_nPipes (s : State) (nl : Bool) (st : Status) : (s.finish nl st).nPipes = s.nPipes := by cases nl <;> rfl
@[simp] theorem State.finish_entry (s : State) (nl : Bool) (st : Status) (j : Nat) : (s.finish nl st).entry j = s.entry j := by cases nl <;> rfl
@[simp] theorem State.finish_pipe (s : State) (nl : Bool) (st : Status) (j : Nat) : (s.finish nl st).pipe j = s.pipe j := by cases nl <;> rfl

/-! ### `State.regWrite` -/

@[simp] theorem State.regWrite_cfg (s : State) (r : RegId) (v : U32) : (s.regWrite r v).cfg = s.cfg := rfl
@[simp] theorem State.regWrite_ports (s : State) (r : RegId) (v : U32) : (s.regWrite r v).ports = s.ports := rfl
@[simp] theorem State.regWrite_lockOwner (s : State) (r : RegId) (v : U32) : (s.regWrite r v).lockOwner = s.lockOwner := rfl
@[simp] theorem State.regWrite_devAlive (s : State) (r : RegId) (v : U32) : (s.regWrite r v).devAlive = s.devAlive := rfl
@[simp] theorem State.regWrite_mem (s : State) (r : RegId) (v : U32) : (s.regWrite r v).mem = s.mem := rfl
@[simp] theorem State.regWrite_allocs (s : State) (r : RegId) (v : U32) : (s.regWrite r v).allocs = s.allocs := rfl
@[simp] theorem State.regWrite_draws (s : State) (r : RegId) (v : U32) : (s.regWrite r v).draws = s.draws := rfl
@[simp] theorem State.regWrite_inputs (s : State) (r : RegId) (v : U32) : (s.regWrite r v).inputs = s.inputs := rfl
@[simp] theorem State.regWrite_port (s : State) (r : RegId) (v : U32) : (s.regWrite r v).port = s.port := rfl
@[simp] theorem State.regWrite_trace (s : State) (r : RegId) (v : U32) : (s.regWrite r v).trace = .regWrite (s.regAddr r) v :: s.trace := rfl
@[simp] theorem State.regWrite_nHosts (s : State) (r : RegId) (v : U32) : (s.regWrite r v).nHosts = s.nHosts := rfl
@[simp] theorem State.regWrite_portAt (s : State) (r : RegId) (v : U32) (j : Nat) : (s.regWrite r v).portAt j = s.portAt j := rfl
@[simp] theorem State.regWrite_cur (s : State) (r : RegId) (v : U32) : (s.regWrite r v).cur = s.cur := rfl

/-! ### Entries of the pipe table -/

@[simp] theorem State.updEntry_nPipes (s : State) (id : Nat) (f : PipeEntry → PipeEntry) :
    (s.updEntry id f).nPipes = s.nPipes := by
  simp [State.nPipes, State.updEntry]

/-- An entry after one entry was changed. -/
theorem State.updEntry_entry (s : State) (id j : Nat) (f : PipeEntry → PipeEntry) :
    (s.updEntry id f).entry j = if j = id ∧ id < s.nPipes then f (s.entry id) else s.entry j := by
  by_cases h : j = id
  · subst h
    by_cases h' : j < s.pipes.length <;>
      simp [State.entry, State.updEntry, State.nPipes, List.getD_eq_getElem?_getD, h']
  · simp [State.entry, State.updEntry, List.getD_eq_getElem?_getD, h, Ne.symm h]

/-- The entry that was changed, where the pipe exists. -/
theorem State.updEntry_entry_same (s : State) (id : Nat) (f : PipeEntry → PipeEntry) (h : id < s.nPipes) :
    (s.updEntry id f).entry id = f (s.entry id) := by
  simp [State.updEntry_entry, h]

/-- Every other entry. -/
theorem State.updEntry_entry_other (s : State) (id j : Nat) (f : PipeEntry → PipeEntry) (h : j ≠ id) :
    (s.updEntry id f).entry j = s.entry j := by
  simp [State.updEntry_entry, h]

@[simp] theorem State.setPipe_nPipes (s : State) (id : Nat) (p : Pipe) : (s.setPipe id p).nPipes = s.nPipes :=
  State.updEntry_nPipes s id _

@[simp] theorem State.setSrc_nPipes (s : State) (id : Nat) (r : SrcRing) : (s.setSrc id r).nPipes = s.nPipes :=
  State.updEntry_nPipes s id _

@[simp] theorem State.setDst_nPipes (s : State) (id : Nat) (r : Ring) : (s.setDst id r).nPipes = s.nPipes :=
  State.updEntry_nPipes s id _

@[simp] theorem State.setPhase_nPipes (s : State) (id : Nat) (ph : Phase) : (s.setPhase id ph).nPipes = s.nPipes :=
  State.updEntry_nPipes s id _

@[simp] theorem State.deviceWrite_nPipes (s : State) (id : Nat) (f : CtrlBlock → CtrlBlock)
    (g : DeviceState → DeviceState) : (s.deviceWrite id f g).nPipes = s.nPipes :=
  State.updEntry_nPipes s id _

@[simp] theorem State.regWrite_nPipes (s : State) (r : RegId) (v : U32) : (s.regWrite r v).nPipes = s.nPipes := by
  cases r <;> by_cases h : s.devAlive <;> simp [State.nPipes, State.regWrite, regStore, h]

/-- The entry of a pipe whose fields were written. -/
theorem State.setPipe_entry (s : State) (id j : Nat) (p : Pipe) :
    (s.setPipe id p).entry j = if j = id ∧ id < s.nPipes then { s.entry id with pipe := p } else s.entry j :=
  State.updEntry_entry s id j _

/-- The entry of a pipe whose source ring was written. -/
theorem State.setSrc_entry (s : State) (id j : Nat) (r : SrcRing) :
    (s.setSrc id r).entry j =
      if j = id ∧ id < s.nPipes then { s.entry id with pipe := { s.pipe id with src := some r } } else s.entry j :=
  State.updEntry_entry s id j _

/-- The entry of a pipe whose destination ring was written. -/
theorem State.setDst_entry (s : State) (id j : Nat) (r : Ring) :
    (s.setDst id r).entry j =
      if j = id ∧ id < s.nPipes then { s.entry id with pipe := { s.pipe id with dst := some r } } else s.entry j :=
  State.updEntry_entry s id j _

/-- The entry of a pipe whose phase was changed. -/
theorem State.setPhase_entry (s : State) (id j : Nat) (ph : Phase) :
    (s.setPhase id ph).entry j =
      if j = id ∧ id < s.nPipes then { s.entry id with pipe := { s.pipe id with phase := ph } } else s.entry j :=
  State.updEntry_entry s id j _

/-- The entry of a pipe that the device wrote. -/
theorem State.deviceWrite_entry (s : State) (id j : Nat) (f : CtrlBlock → CtrlBlock) (g : DeviceState → DeviceState) :
    (s.deviceWrite id f g).entry j =
      if j = id ∧ id < s.nPipes then { s.entry id with cb := f (s.entry id).cb, dev := g (s.entry id).dev }
      else s.entry j :=
  State.updEntry_entry s id j _

/-- The entry of a pipe after a register write (R16): a live device takes it, a dead one does not. -/
theorem State.regWrite_entry (s : State) (id j : Nat) (f : RegField) (v : U32) :
    (s.regWrite (.block id f) v).entry j =
      if j = id ∧ id < s.nPipes ∧ s.devAlive = true then (s.entry id).put v f else s.entry j := by
  by_cases h : s.devAlive
  · have := State.updEntry_entry s id j fun e => e.put v f
    simpa [State.entry, State.regWrite, regStore, State.updEntry, State.nPipes, h] using this
  · simp [State.entry, State.regWrite, h]

/-- A write to the summary register changes no register (R47). -/
@[simp] theorem State.regWrite_intSummary_pipes (s : State) (v : U32) : (s.regWrite .intSummary v).pipes = s.pipes := by
  simp [State.regWrite, regStore]

/-- A register write to a device that does not respond changes no register (R46). -/
theorem State.regWrite_dead_pipes (s : State) (r : RegId) (v : U32) (h : s.devAlive = false) :
    (s.regWrite r v).pipes = s.pipes := by
  simp [State.regWrite, h]

/-! ### Ports -/

@[simp] theorem State.setCur_nHosts (s : State) (p : Port) : (s.setCur p).nHosts = s.nHosts := by
  simp [State.nHosts, State.setCur]

/-- The running port after it was written. -/
theorem State.setCur_cur (s : State) (p : Port) (h : s.port < s.nHosts) : (s.setCur p).cur = p := by
  have h' : s.port < s.ports.length := h
  simp [State.cur, State.setCur, List.getD_eq_getElem?_getD, h']

/-- Every other port. -/
theorem State.setCur_portAt_other (s : State) (p : Port) (h : Nat) (hne : h ≠ s.port) :
    (s.setCur p).portAt h = s.portAt h := by
  simp [State.portAt, State.setCur, List.getD_eq_getElem?_getD, Ne.symm hne]

/-- Writing the running port twice is writing it once. -/
@[simp] theorem State.setCur_setCur (s : State) (p q : Port) : (s.setCur p).setCur q = s.setCur q := by
  simp [State.setCur]

@[simp] theorem State.finish_nHosts (s : State) (nl : Bool) (st : Status) : (s.finish nl st).nHosts = s.nHosts := by
  simp [State.finish, State.returnStatus]

/-- The running port after an operation returned: the status is in `x[0]`, the rest is as it was (R18, R21). -/
theorem State.finish_cur (s : State) (nl : Bool) (st : Status) (h : s.port < s.nHosts) :
    (s.finish nl st).cur = { s.cur with x0 := statusCode st } := by
  cases nl <;> exact State.setCur_cur _ _ h

/-- Every other port after an operation returned. -/
theorem State.finish_portAt_other (s : State) (nl : Bool) (st : Status) (h : Nat) (hne : h ≠ s.port) :
    (s.finish nl st).portAt h = s.portAt h := by
  cases nl <;> exact State.setCur_portAt_other _ _ _ hne

end Sys2Proof.Machine
end

