-- ==== Sys2Proof/Laws/Ops.lean ====
section
/-! SUPPORT. What each shared operation can do, said once: the lock, the ring selection, the synchroniser, the allocator,
the service stages, one move of an agent. -/

namespace Sys2Proof.Machine

/-! Lemmas are elaborated one after another: the threads of parallel elaboration count against the memory limit. -/
set_option Elab.async false

/-! ### Register widths -/

/-- A legal 32-bit operand is read whole. -/
theorem low32_toNat (x : Nat) (h : fits32 x = true) : (low32 x).toNat = x := by
  simp only [fits32, decide_eq_true_eq] at h
  simp only [low32, BitVec.toNat_ofNat]
  exact Nat.mod_eq_of_lt h

/-- What a port register keeps has `CTX_W` bits. -/
theorem State.inWidth_lt (s : State) (v : Nat) : s.inWidth v < 2 ^ s.cfg.ctxW := Nat.mod_lt _ (Nat.two_pow_pos _)

/-- A value of `CTX_W` bits is kept whole. -/
theorem State.inWidth_eq (s : State) (v : Nat) (h : v < 2 ^ s.cfg.ctxW) : s.inWidth v = v := Nat.mod_eq_of_lt h

/-- A result of at most 32 bits fits a port register. -/
theorem result_lt (s : State) {w : Nat} (v : BitVec w) (hw : w ≤ 32) (h : 32 ≤ s.cfg.ctxW) : result v < 2 ^ s.cfg.ctxW :=
  v.isLt.trans_le (Nat.pow_le_pow_right (by decide) (hw.trans h))

/-- A status fits a port register. -/
theorem statusCode_lt (s : State) (st : Status) (h : 32 ≤ s.cfg.ctxW) : statusCode st < 2 ^ s.cfg.ctxW :=
  lt_of_lt_of_le (by cases st <;> decide : statusCode st < 2 ^ 32) (Nat.pow_le_pow_right (by decide) h)

/-! ### The lock -/

/-- Taking the lock changes nothing where the port holds it. -/
theorem State.acquire_of_owner (s : State) (h : s.lockOwner = some s.port) : s.acquire = s := by
  cases s; simp_all [State.acquire]

/-- In either form an operation that may enter begins with the port as the owner (R210). -/
theorem State.enter_of_mayEnter (s : State) (nl : Bool) (h : MayEnter nl s) : s.enter nl = .begins s.acquire := by
  obtain ⟨_, h⟩ := h
  cases nl
  · have h' : s.lockOwner = none := by simpa using h
    simp [State.enter, h']
  · have h' : s.lockOwner = some s.port := by simpa using h
    simp [State.enter, h', State.acquire_of_owner]

/-- What `enter` can do: each answer with its condition (R210). -/
theorem State.enter_cases (s : State) (nl : Bool) :
    (nl = true ∧ s.lockOwner ≠ some s.port ∧ s.enter nl = .refused .nolockWithoutLock) ∨
    (nl = false ∧ s.lockOwner = some s.port ∧ s.enter nl = .refused .relockByOwner) ∨
    (nl = false ∧ s.lockOwner ≠ some s.port ∧ s.lockOwner ≠ none ∧ s.enter nl = .waits) ∨
    ((s.lockOwner = if nl then some s.port else none) ∧ s.enter nl = .begins s.acquire) := by
  cases nl
  · by_cases h : s.lockOwner = some s.port
    · simp [State.enter, h]
    · by_cases h' : s.lockOwner = none <;> simp [State.enter, h, h']
  · by_cases h : s.lockOwner = some s.port
    · simp [State.enter, h, State.acquire_of_owner]
    · simp [State.enter, h]

/-- An operation that may enter runs its body with the lock held. -/
theorem State.locked_of_mayEnter (s : State) (i : Instr) (nl legal : Bool) (body : State → Outcome)
    (hw : i.wf s.nPipes = true) (hl : legal = true) (h : MayEnter nl s) :
    s.locked i nl legal body = body s.acquire := by
  simp [State.locked, hw, hl, State.enter_of_mayEnter s nl h]

/-- If a locked operation answers a next state, it waits for the lock or its body answered it. -/
theorem State.locked_next (s t : State) (i : Instr) (nl legal : Bool) (body : State → Outcome)
    (h : s.locked i nl legal body = .next t) :
    i.wf s.nPipes = true ∧ legal = true ∧
    ((nl = false ∧ s.lockOwner ≠ some s.port ∧ s.lockOwner ≠ none ∧ t = s.park i) ∨
     ((s.lockOwner = if nl then some s.port else none) ∧ body s.acquire = .next t)) := by
  unfold State.locked at h
  split at h
  · rename_i hg
    obtain ⟨hw, hl⟩ := Bool.and_eq_true_iff.1 hg
    refine ⟨hw, hl, ?_⟩
    rcases State.enter_cases s nl with ⟨_, _, e⟩ | ⟨_, _, e⟩ | ⟨a, b, c, e⟩ | ⟨a, e⟩ <;> rw [e] at h
    · cases h
    · cases h
    · exact .inl ⟨a, b, c, by simpa using h.symm⟩
    · exact .inr ⟨a, h⟩
  · cases h

/-- If a locked operation faults, its body faulted. -/
theorem State.locked_fault (s : State) (i : Instr) (nl legal : Bool) (body : State → Outcome) (f : Fault)
    (h : s.locked i nl legal body = .fault f) : body s.acquire = .fault f := by
  unfold State.locked at h
  split at h
  · rcases State.enter_cases s nl with ⟨_, _, e⟩ | ⟨_, _, e⟩ | ⟨_, _, _, e⟩ | ⟨_, e⟩ <;> rw [e] at h
    · cases h
    · cases h
    · cases h
    · exact h
  · cases h

/-- `finish` leaves everything but the lock and the running port. -/
theorem State.finish_pipes_eq (s : State) (nl : Bool) (st : Status) : (s.finish nl st).pipes = s.pipes := by simp

/-- An operation that began through `enter` leaves the lock as it found it (R210, R211 (a)). -/
theorem State.finish_lockOwner_restored (s t : State) (nl : Bool) (st : Status)
    (h : s.lockOwner = if nl then some s.port else none) (ht : t.lockOwner = s.acquire.lockOwner) :
    (t.finish nl st).lockOwner = s.lockOwner := by
  cases nl <;> simp_all

/-! ### Ring selection -/

theorem State.withSrc_of_active (s : State) (id : Nat) (k : SrcRing → Outcome) (r : SrcRing)
    (hp : (s.pipe id).phase = .active) (hr : (s.pipe id).src = some r) : s.withSrc id k = k r := by
  simp [State.withSrc, hp, hr]

theorem State.withDst_of_active (s : State) (id : Nat) (k : Ring → Outcome) (r : Ring)
    (hp : (s.pipe id).phase = .active) (hr : (s.pipe id).dst = some r) : s.withDst id k = k r := by
  simp [State.withDst, hp, hr]

/-- If a source-ring operation answers a next state, the pipe is Active with a source ring (R198). -/
theorem State.withSrc_next (s t : State) (id : Nat) (k : SrcRing → Outcome) (h : s.withSrc id k = .next t) :
    ∃ r, (s.pipe id).phase = .active ∧ (s.pipe id).src = some r ∧ k r = .next t := by
  unfold State.withSrc at h
  split at h
  · cases h
  · rename_i hp
    split at h
    · cases h
    · rename_i r hr
      exact ⟨r, by simpa using hp, hr, h⟩

/-- If a destination-ring operation answers a next state, the pipe is Active with a destination ring (R198). -/
theorem State.withDst_next (s t : State) (id : Nat) (k : Ring → Outcome) (h : s.withDst id k = .next t) :
    ∃ r, (s.pipe id).phase = .active ∧ (s.pipe id).dst = some r ∧ k r = .next t := by
  unfold State.withDst at h
  split at h
  · cases h
  · rename_i hp
    split at h
    · cases h
    · rename_i r hr
      exact ⟨r, by simpa using hp, hr, h⟩

theorem State.withSlot_of_inSpace (s : State) (base i : U32) (k : Outcome) (h : s.slotInSpace base i = true) :
    s.withSlot base i k = k := by
  simp [State.withSlot, h]

theorem State.withSlot_next (s t : State) (base i : U32) (k : Outcome) (h : s.withSlot base i k = .next t) :
    s.slotInSpace base i = true ∧ k = .next t := by
  unfold State.withSlot at h
  split at h
  · exact ⟨‹_›, h⟩
  · cases h

/-- The slots of a sound ring exist in device-bus space. -/
theorem Ring.ok_slotInSpace (s : State) (r : Ring) (i : U32) (h : r.ok s.cfg) (hi : i.toNat < r.cap.toNat) :
    s.slotInSpace r.base i = true := by
  obtain ⟨_, _, _, _, hb, _⟩ := h
  unfold Ring.bytes at hb
  have hm : (i.toNat + 1) * descSize ≤ r.cap.toNat * descSize := Nat.mul_le_mul_right _ hi
  have hs : (i.toNat + 1) * descSize = i.toNat * descSize + descSize := Nat.succ_mul _ _
  have : descAddr r.base i + descSize ≤ s.cfg.devAddrLimit := by
    unfold descAddr
    omega
  simpa [State.slotInSpace, State.inSpace] using this

/-! ### The completion-pointer synchroniser -/

/-- What the lazy refresh can answer (R150, R151). -/
theorem State.lazyRefresh_cases (s : State) (id : Nat) (r : SrcRing) :
    (r.hw ≠ r.sw ∧ s.lazyRefresh id r = .ready s r) ∨
    (r.hw = r.sw ∧ s.regRead (.block id .srcRdIdx) = allOnes ∧
      s.lazyRefresh id r = .unsupported (s.noteRead (.block id .srcRdIdx))) ∨
    (r.hw = r.sw ∧ s.regRead (.block id .srcRdIdx) ≠ allOnes ∧
      s.lazyRefresh id r =
        .ready ((s.noteRead (.block id .srcRdIdx)).setSrc id { r with hw := s.regRead (.block id .srcRdIdx) &&& r.mask })
          { r with hw := s.regRead (.block id .srcRdIdx) &&& r.mask }) := by
  by_cases h : r.hw = r.sw
  · by_cases h' : s.regRead (.block id .srcRdIdx) = allOnes <;> simp [State.lazyRefresh, State.syncCompletion, h, h']
  · simp [State.lazyRefresh, h]

/-! ### The allocator -/

/-- The allocator's answer changes only what is left of its answers and the counter of free values. -/
theorem State.nextAnswer_frame (s : State) :
    (s.nextAnswer).2 = { s with allocs := (s.nextAnswer).2.allocs, draws := (s.nextAnswer).2.draws } := by
  unfold State.nextAnswer
  split <;> rfl

/-- What asking for a region can answer (R191): with the conditions of each case. -/
theorem State.allocSide_cases (s : State) (n : Nat) (taken : List Region) :
    (n = 0 ∧ s.allocSide n taken = .got s none) ∨
    (n ≠ 0 ∧ ∃ t, t = ((s.emit (.dmaAlloc (roundupPow2 n * descSize))).nextAnswer).2 ∧
      ((s.allocSide n taken = .contractBroken) ∨ (s.allocSide n taken = .failed t) ∨
       (∃ da, s.allocSide n taken = .failed (t.emit (.dmaRelease da (roundupPow2 n * descSize)))) ∨
       (∃ va da contents, s.allocSide n taken = .got t (some ⟨roundupPow2 n, va, da, contents⟩) ∧
         da.toNat % s.cfg.ringAlign = 0 ∧ (∀ g ∈ taken, disjointRegions (da.toNat, roundupPow2 n * descSize) g = true) ∧
         da.toNat + roundupPow2 n * descSize ≤ s.cfg.devAddrLimit))) := by
  by_cases h : n = 0
  · exact .inl ⟨h, by simp [State.allocSide, h]⟩
  · refine .inr ⟨h, _, rfl, ?_⟩
    simp only [State.allocSide, if_neg h, State.obtainRegion]
    generalize (s.emit (.dmaAlloc (roundupPow2 n * descSize))).nextAnswer = a
    obtain ⟨answer, t⟩ := a
    cases answer with
    | fail => exact .inr (.inl rfl)
    | region va da contents =>
      dsimp only
      split
      · exact .inl rfl
      · rename_i hc
        split
        · exact .inr (.inr (.inl ⟨da, rfl⟩))
        · rename_i hlim
          refine .inr (.inr (.inr ⟨va, da, contents, rfl, ?_, ?_, by omega⟩))
          · by_contra hne
            exact hc (.inl hne)
          · intro g hg
            by_contra hd
            refine hc (.inr (List.any_eq_true.2 ⟨g, hg, ?_⟩))
            simpa using hd

/-! ### Service stages -/

/-- Phase A with the lock free (R180). -/
theorem State.phaseA_free (s : State) (id : Nat) (enclosed : Bool) (rem : U32) (h : s.lockOwner = none) :
    s.phaseA id enclosed rem =
      (s.regWrite (.block id .intStatus) s.cfg.ccMask).setSvc (some ⟨.beforeRecv id, enclosed, rem⟩) := by
  simp [State.phaseA, h]

/-- Phase A while the lock is held (R207). -/
theorem State.phaseA_held (s : State) (id : Nat) (enclosed : Bool) (rem : U32) (h : s.lockOwner ≠ none) :
    s.phaseA id enclosed rem = s.setSvc (some ⟨.phaseA id, enclosed, rem⟩) := by
  simp [State.phaseA, h]

/-- If entry to a service operation answers a next state, the port neither holds the lock nor is in a service operation. -/
theorem State.serviceEntry_next (s t : State) (k : Outcome) (h : s.serviceEntry k = .next t) :
    s.lockOwner ≠ some s.port ∧ s.cur.svc = none ∧ k = .next t := by
  unfold State.serviceEntry at h
  split at h
  · cases h
  · rename_i hl
    split at h
    · cases h
    · rename_i hs
      exact ⟨hl, by simpa using hs, h⟩

/-! ### The loop over the interrupt enables -/

/-- One round of the loop. -/
theorem State.writeEnables_succ (value : Nat → U32) (k id : Nat) (s : State) :
    State.writeEnables value (k + 1) id s =
      State.writeEnables value k (id + 1) (s.regWrite (.block id .intEnable) (value id)) := rfl

theorem State.writeEnables_cfg (value : Nat → U32) (k id : Nat) (s : State) :
    (State.writeEnables value k id s).cfg = s.cfg := by
  induction k generalizing id s with
  | zero => rfl
  | succ k ih => rw [State.writeEnables_succ, ih]; simp

theorem State.writeEnables_nPipes (value : Nat → U32) (k id : Nat) (s : State) :
    (State.writeEnables value k id s).nPipes = s.nPipes := by
  induction k generalizing id s with
  | zero => rfl
  | succ k ih => rw [State.writeEnables_succ, ih]; simp

theorem State.writeEnables_mem (value : Nat → U32) (k id : Nat) (s : State) :
    (State.writeEnables value k id s).mem = s.mem := by
  induction k generalizing id s with
  | zero => rfl
  | succ k ih => rw [State.writeEnables_succ, ih]; simp

theorem State.writeEnables_ports (value : Nat → U32) (k id : Nat) (s : State) :
    (State.writeEnables value k id s).ports = s.ports := by
  induction k generalizing id s with
  | zero => rfl
  | succ k ih => rw [State.writeEnables_succ, ih]; simp

theorem State.writeEnables_lockOwner (value : Nat → U32) (k id : Nat) (s : State) :
    (State.writeEnables value k id s).lockOwner = s.lockOwner := by
  induction k generalizing id s with
  | zero => rfl
  | succ k ih => rw [State.writeEnables_succ, ih]; simp

/-! ### One move -/

/-- If a step answers a next state, nothing was to happen or the first move answered it. -/
theorem step_next (s t : State) (h : step s = .next t) :
    (s.inputs = [] ∧ t = s) ∨ ∃ a rest, s.inputs = a :: rest ∧ perform a { s with inputs := rest } = .next t := by
  unfold step takeInput at h
  split at h
  · rename_i hi
    exact .inl ⟨hi, by simpa using h.symm⟩
  · rename_i a rest hi
    exact .inr ⟨a, rest, hi, h⟩

/-- If a command word is accepted and answers a next state, it decodes and its operation answered it. -/
theorem runWord_next (w : U32) (s t : State) (h : runWord w s = .next t) :
    ∃ i, decode w = .ok i ∧ exec i s = .next t := by
  unfold runWord at h
  split at h
  · rename_i i hi
    exact ⟨i, hi, h⟩
  · cases h

/-- What going on can do. -/
theorem goOn_next (s t : State) (h : goOn s = .next t) :
    (∃ i, s.cur.waiting = some i ∧ exec i (s.setCur { s.cur with waiting := none }) = .next t) ∨
    (s.cur.waiting = none ∧ ∃ v, s.cur.svc = some v ∧ s.serviceStage v = .next t) ∨
    (s.cur.waiting = none ∧ s.cur.svc = none ∧ t = s) := by
  unfold goOn at h
  split at h
  · rename_i i hi
    exact .inl ⟨i, hi, h⟩
  · rename_i hi
    split at h
    · rename_i v hv
      exact .inr (.inl ⟨hi, v, hv, h⟩)
    · rename_i hv
      exact .inr (.inr ⟨hi, hv, by simpa using h.symm⟩)

end Sys2Proof.Machine
end

