-- ==== Sys2Proof/Laws/PerInstr.lean ====
section
/-! SUPPORT. The family `EncodedRow`: the command word of every operation matches its own row of the opcode map
(spec/30_encoding.md R107, R108), one lemma per constructor. -/

namespace Sys2Proof.Laws

/-! Lemmas are elaborated one after another: the threads of parallel elaboration count against the memory limit. -/
set_option Elab.async false

/-- The row of the opcode map that an operation belongs to. -/
def rowOf : Instr → OpcodeRow
  | .lock => ⟨"lock", .EX, 0x00000001#32⟩
  | .unlock => ⟨"unlock", .EX, 0x00000002#32⟩
  | .send _ _ _ _ _ => ⟨"send", .S, 0x00000010#32⟩
  | .revertLastGather _ _ => ⟨"revert_last_gather", .P, 0x00000011#32⟩
  | .completedSendNext _ _ => ⟨"completed_send_next", .P, 0x00000012#32⟩
  | .cancelSendNext _ _ => ⟨"cancel_send_next", .P, 0x00000013#32⟩
  | .availableSendSlots _ _ => ⟨"available_send_slots", .P, 0x00000014#32⟩
  | .rxPostBuf _ _ => ⟨"rx_post_buf", .P, 0x00000020#32⟩
  | .rxUpdateWriteIdx _ _ => ⟨"rx_update_write_idx", .P, 0x00000021#32⟩
  | .completedRecvNext _ _ => ⟨"completed_recv_next", .P, 0x00000022#32⟩
  | .revokeRecvNext _ _ => ⟨"revoke_recv_next", .P, 0x00000023#32⟩
  | .availableRecvSlots _ _ => ⟨"available_recv_slots", .P, 0x00000024#32⟩
  | .allocPipe _ _ => ⟨"alloc_pipe", .P, 0x00000030#32⟩
  | .initPipe _ _ => ⟨"init_pipe", .P, 0x00000031#32⟩
  | .deinitPipe _ _ => ⟨"deinit_pipe", .P, 0x00000032#32⟩
  | .freePipe _ _ => ⟨"free_pipe", .P, 0x00000033#32⟩
  | .servicePipe _ => ⟨"service_pipe", .PX, 0x00000040#32⟩
  | .serviceAnyPending => ⟨"service_any_pending", .EX, 0x00000041#32⟩
  | .enableInterrupts _ => ⟨"enable_interrupts", .E, 0x00000042#32⟩
  | .disableInterrupts _ => ⟨"disable_interrupts", .E, 0x00000043#32⟩

/-- The command word of an operation matches its row, and that row stands in the opcode map. -/
def EncodedRow.Statement (i : Instr) : Prop :=
  rowOf i ∈ opcodeRows ∧ (rowOf i).accepts (encode i) = true

/-- A word of format S keeps its opcode and its zero bits under the format's mask. -/
theorem packS_masked (tid : TidField) (bs g nl : Bool) (p : PipeField) (op : BitVec 8) :
    packS tid bs g nl p op &&& Format.mask .S = op.setWidth 32 := by
  have : Format.mask .S = 3#2 ++ 0#14 ++ 0#1 ++ 0#1 ++ 0#1 ++ 0#5 ++ 0xFF#8 := by decide
  rw [this]
  unfold packS
  rw [BitVec.and_append, BitVec.and_append, BitVec.and_append, BitVec.and_append, BitVec.and_append,
    BitVec.and_append]
  simp only [BitVec.and_zero, BitVec.zero_and]
  apply BitVec.eq_of_toNat_eq
  have h255 : (0xFF#8 : BitVec 8) = BitVec.allOnes 8 := by decide
  rw [h255, BitVec.and_allOnes]
  have hop := op.isLt
  simp [-BitVec.toNat_append]
  rw [BitVec.toNat_append]
  simp
  omega

/-- A word of format P keeps its opcode and its zero bits under the format's mask. -/
theorem packP_masked (nl : Bool) (p : PipeField) (op : BitVec 8) :
    packP nl p op &&& Format.mask .P = op.setWidth 32 := by
  have : Format.mask .P = 0x3FFFF#18 ++ 0#1 ++ 0#5 ++ 0xFF#8 := by decide
  rw [this]
  unfold packP
  rw [BitVec.and_append, BitVec.and_append, BitVec.and_append]
  simp only [BitVec.and_zero, BitVec.zero_and]
  apply BitVec.eq_of_toNat_eq
  have h255 : (0xFF#8 : BitVec 8) = BitVec.allOnes 8 := by decide
  rw [h255, BitVec.and_allOnes]
  have hop := op.isLt
  simp [-BitVec.toNat_append]
  rw [BitVec.toNat_append]
  simp
  omega

theorem packPX_masked (p : PipeField) (op : BitVec 8) : packPX p op &&& Format.mask .PX = op.setWidth 32 := by
  have : Format.mask .PX = 0x7FFFF#19 ++ 0#5 ++ 0xFF#8 := by decide
  rw [this]
  unfold packPX
  rw [BitVec.and_append, BitVec.and_append]
  simp only [BitVec.and_zero, BitVec.zero_and]
  apply BitVec.eq_of_toNat_eq
  have h255 : (0xFF#8 : BitVec 8) = BitVec.allOnes 8 := by decide
  rw [h255, BitVec.and_allOnes]
  have hop := op.isLt
  simp [-BitVec.toNat_append]
  rw [BitVec.toNat_append]
  simp
  omega

theorem packE_masked (nl : Bool) (op : BitVec 8) : packE nl op &&& Format.mask .E = op.setWidth 32 := by
  have : Format.mask .E = 0x3FFFF#18 ++ 0#1 ++ 0x1F#5 ++ 0xFF#8 := by decide
  rw [this]
  unfold packE
  rw [BitVec.and_append, BitVec.and_append, BitVec.and_append]
  simp only [BitVec.and_zero, BitVec.zero_and]
  apply BitVec.eq_of_toNat_eq
  have h255 : (0xFF#8 : BitVec 8) = BitVec.allOnes 8 := by decide
  rw [h255, BitVec.and_allOnes]
  have hop := op.isLt
  simp [-BitVec.toNat_append]
  rw [BitVec.toNat_append]
  simp
  omega

theorem EncodedRow.lock : EncodedRow.Statement .lock := by
  unfold EncodedRow.Statement; decide

theorem EncodedRow.unlock : EncodedRow.Statement .unlock := by
  unfold EncodedRow.Statement; decide

theorem EncodedRow.send (nl : Bool) (pipe : PipeField) (g bs : Bool) (tid : TidField) :
    EncodedRow.Statement (.send nl pipe g bs tid) :=
  ⟨by simp [rowOf, opcodeRows], by simp [OpcodeRow.accepts, rowOf, encode, packS_masked]⟩

theorem EncodedRow.revertLastGather (nl : Bool) (pipe : PipeField) : EncodedRow.Statement (.revertLastGather nl pipe) :=
  ⟨by simp [rowOf, opcodeRows], by simp [OpcodeRow.accepts, rowOf, encode, packP_masked]⟩

theorem EncodedRow.completedSendNext (nl : Bool) (pipe : PipeField) : EncodedRow.Statement (.completedSendNext nl pipe) :=
  ⟨by simp [rowOf, opcodeRows], by simp [OpcodeRow.accepts, rowOf, encode, packP_masked]⟩

theorem EncodedRow.cancelSendNext (nl : Bool) (pipe : PipeField) : EncodedRow.Statement (.cancelSendNext nl pipe) :=
  ⟨by simp [rowOf, opcodeRows], by simp [OpcodeRow.accepts, rowOf, encode, packP_masked]⟩

theorem EncodedRow.availableSendSlots (nl : Bool) (pipe : PipeField) : EncodedRow.Statement (.availableSendSlots nl pipe) :=
  ⟨by simp [rowOf, opcodeRows], by simp [OpcodeRow.accepts, rowOf, encode, packP_masked]⟩

theorem EncodedRow.rxPostBuf (nl : Bool) (pipe : PipeField) : EncodedRow.Statement (.rxPostBuf nl pipe) :=
  ⟨by simp [rowOf, opcodeRows], by simp [OpcodeRow.accepts, rowOf, encode, packP_masked]⟩

theorem EncodedRow.rxUpdateWriteIdx (nl : Bool) (pipe : PipeField) : EncodedRow.Statement (.rxUpdateWriteIdx nl pipe) :=
  ⟨by simp [rowOf, opcodeRows], by simp [OpcodeRow.accepts, rowOf, encode, packP_masked]⟩

theorem EncodedRow.completedRecvNext (nl : Bool) (pipe : PipeField) : EncodedRow.Statement (.completedRecvNext nl pipe) :=
  ⟨by simp [rowOf, opcodeRows], by simp [OpcodeRow.accepts, rowOf, encode, packP_masked]⟩

theorem EncodedRow.revokeRecvNext (nl : Bool) (pipe : PipeField) : EncodedRow.Statement (.revokeRecvNext nl pipe) :=
  ⟨by simp [rowOf, opcodeRows], by simp [OpcodeRow.accepts, rowOf, encode, packP_masked]⟩

theorem EncodedRow.availableRecvSlots (nl : Bool) (pipe : PipeField) : EncodedRow.Statement (.availableRecvSlots nl pipe) :=
  ⟨by simp [rowOf, opcodeRows], by simp [OpcodeRow.accepts, rowOf, encode, packP_masked]⟩

theorem EncodedRow.allocPipe (nl : Bool) (pipe : PipeField) : EncodedRow.Statement (.allocPipe nl pipe) :=
  ⟨by simp [rowOf, opcodeRows], by simp [OpcodeRow.accepts, rowOf, encode, packP_masked]⟩

theorem EncodedRow.initPipe (nl : Bool) (pipe : PipeField) : EncodedRow.Statement (.initPipe nl pipe) :=
  ⟨by simp [rowOf, opcodeRows], by simp [OpcodeRow.accepts, rowOf, encode, packP_masked]⟩

theorem EncodedRow.deinitPipe (nl : Bool) (pipe : PipeField) : EncodedRow.Statement (.deinitPipe nl pipe) :=
  ⟨by simp [rowOf, opcodeRows], by simp [OpcodeRow.accepts, rowOf, encode, packP_masked]⟩

theorem EncodedRow.freePipe (nl : Bool) (pipe : PipeField) : EncodedRow.Statement (.freePipe nl pipe) :=
  ⟨by simp [rowOf, opcodeRows], by simp [OpcodeRow.accepts, rowOf, encode, packP_masked]⟩

theorem EncodedRow.servicePipe (pipe : PipeField) : EncodedRow.Statement (.servicePipe pipe) :=
  ⟨by simp [rowOf, opcodeRows], by simp [OpcodeRow.accepts, rowOf, encode, packPX_masked]⟩

theorem EncodedRow.serviceAnyPending : EncodedRow.Statement .serviceAnyPending := by
  unfold EncodedRow.Statement; decide

theorem EncodedRow.enableInterrupts (nl : Bool) : EncodedRow.Statement (.enableInterrupts nl) :=
  ⟨by simp [rowOf, opcodeRows], by simp [OpcodeRow.accepts, rowOf, encode, packE_masked]⟩

theorem EncodedRow.disableInterrupts (nl : Bool) : EncodedRow.Statement (.disableInterrupts nl) :=
  ⟨by simp [rowOf, opcodeRows], by simp [OpcodeRow.accepts, rowOf, encode, packE_masked]⟩

end Sys2Proof.Laws
end

