-- ==== Sys2Proof/Tests/Slice0.lean ====
section
/-! SUPPORT. Tests: ill-formed terms are refused, command words written out from spec/30_encoding.md decode, the worked
examples of spec/40 to 49 as single steps, and a witness for every statement that has hypotheses. -/

namespace Sys2Proof.Tests

set_option Elab.async false

open Sys2Proof.Machine

/-! ### Ill-formed terms are refused -/

theorem test_reference_configuration_wf : Config.ref.wf 8 1 = true := by decide +kernel
theorem test_counts_refused : countsOk 0 1 = false ∧ countsOk 33 1 = false ∧ countsOk 8 0 = false := by decide
theorem test_align_refused : { Config.ref with ringAlign := 0 }.memoryOk = false ∧
    { Config.ref with ringAlign := 6 }.memoryOk = false := by decide
theorem test_width_refused : { Config.ref with ctxW := 31 }.widthOk = false ∧
    { Config.ref with ctxW := 32 }.wf 8 1 = true := by decide +kernel
theorem test_limit_refused : { Config.ref with devAddrLimit := 0x100000001 }.memoryOk = false := by decide
theorem test_empty_masks_refused : { Config.ref with ccMask := 0#32 }.masksOk = false ∧
    { Config.ref with wmMask := 0#32 }.masksOk = false ∧ { Config.ref with errMask := 0#32 }.masksOk = false := by
  decide +kernel
theorem test_overlapping_masks_refused : { Config.ref with ccMask := 0x2#32 }.masksOk = false ∧
    { Config.ref with ccMask := 0x20#32 }.masksOk = false ∧ { Config.ref with errMask := 0x10#32 }.masksOk = false := by
  decide +kernel
theorem test_equal_offsets_refused :
    { Config.ref with offsets := { Config.ref.offsets with intStatus := 0x30#32 } }.mapOk 8 = false := by decide +kernel
theorem test_unaligned_offset_refused :
    { Config.ref with offsets := { Config.ref.offsets with intStatus := 0x36#32 } }.mapOk 8 = false := by decide +kernel
theorem test_offset_beyond_stride_refused :
    { Config.ref with offsets := { Config.ref.offsets with intStatus := 0x400#32 } }.mapOk 8 = false := by decide +kernel
theorem test_unaligned_blocks_refused : { Config.ref with pipeStride := 0x402#32 }.mapOk 1 = false ∧
    { Config.ref with cbBase0 := 2#32 }.mapOk 1 = false := by decide +kernel
theorem test_blocks_beyond_space_refused : { Config.ref with cbBase0 := 0xFFFFF000#32 }.mapOk 8 = false := by
  decide +kernel
theorem test_summary_inside_blocks_refused : { Config.ref with intSummaryAddr := 0x1FFC#32 }.mapOk 8 = false := by
  decide +kernel
theorem test_unaligned_summary_refused : { Config.ref with intSummaryAddr := 0x2002#32 }.mapOk 8 = false := by
  decide +kernel
theorem test_pipe_refused : Instr.wf 8 (.send false 8#5 false false 0#14) = false ∧
    Instr.wf 8 (.servicePipe 31#5) = false ∧ Instr.wf 8 (.freePipe true 7#5) = true := by decide
theorem test_operands_refused : fits32 0x100000000 = false ∧ entryCountOk 0x80000001 = false ∧
    attrOk 16 = false ∧ fits32 0xFFFFFFFF = true ∧ entryCountOk 0x80000000 = true ∧ attrOk 15 = true := by
  decide +kernel

/-! ### Decoding: words written out from R105, R107, R108 (bit 31 on the left) -/

theorem test_decode_lock : decode 0b000000000000000000000000_00000001#32 = .ok .lock := by decide +kernel
theorem test_decode_unlock : decode 0b000000000000000000000000_00000010#32 = .ok .unlock := by decide +kernel
theorem test_decode_send : decode 0b00_10000000000001_0_1_1_10001_00010000#32 = .ok (.send true 17#5 true false 0x2001#14) := by
  decide +kernel
theorem test_decode_revertLastGather : decode 0b000000000000000000_0_00001_00010001#32 = .ok (.revertLastGather false 1#5) := by
  decide +kernel
theorem test_decode_completedSendNext : decode 0b000000000000000000_1_00010_00010010#32 = .ok (.completedSendNext true 2#5) := by
  decide +kernel
theorem test_decode_cancelSendNext : decode 0b000000000000000000_0_00011_00010011#32 = .ok (.cancelSendNext false 3#5) := by
  decide +kernel
theorem test_decode_availableSendSlots : decode 0b000000000000000000_1_00100_00010100#32 = .ok (.availableSendSlots true 4#5) := by
  decide +kernel
theorem test_decode_rxPostBuf : decode 0b000000000000000000_0_00101_00100000#32 = .ok (.rxPostBuf false 5#5) := by
  decide +kernel
theorem test_decode_rxUpdateWriteIdx : decode 0b000000000000000000_1_00110_00100001#32 = .ok (.rxUpdateWriteIdx true 6#5) := by
  decide +kernel
theorem test_decode_completedRecvNext : decode 0b000000000000000000_0_00111_00100010#32 = .ok (.completedRecvNext false 7#5) := by
  decide +kernel
theorem test_decode_revokeRecvNext : decode 0b000000000000000000_1_01000_00100011#32 = .ok (.revokeRecvNext true 8#5) := by
  decide +kernel
theorem test_decode_availableRecvSlots : decode 0b000000000000000000_0_01001_00100100#32 = .ok (.availableRecvSlots false 9#5) := by
  decide +kernel
theorem test_decode_allocPipe : decode 0b000000000000000000_1_01010_00110000#32 = .ok (.allocPipe true 10#5) := by
  decide +kernel
theorem test_decode_initPipe : decode 0b000000000000000000_0_01011_00110001#32 = .ok (.initPipe false 11#5) := by
  decide +kernel
theorem test_decode_deinitPipe : decode 0b000000000000000000_1_01100_00110010#32 = .ok (.deinitPipe true 12#5) := by
  decide +kernel
theorem test_decode_freePipe : decode 0b000000000000000000_0_01101_00110011#32 = .ok (.freePipe false 13#5) := by
  decide +kernel
theorem test_decode_servicePipe : decode 0b0000000000000000000_11111_01000000#32 = .ok (.servicePipe 31#5) := by
  decide +kernel
theorem test_decode_serviceAnyPending : decode 0b000000000000000000000000_01000001#32 = .ok .serviceAnyPending := by
  decide +kernel
theorem test_decode_enableInterrupts : decode 0b000000000000000000_1_00000_01000010#32 = .ok (.enableInterrupts true) := by
  decide +kernel
theorem test_decode_disableInterrupts : decode 0b000000000000000000_0_00000_01000011#32 = .ok (.disableInterrupts false) := by
  decide +kernel

/-- R111: an opcode of no row, a reserved bit, `BS` outside `send`, `NL` on `service_pipe`, `PIPE` on an engine-wide
operation. -/
theorem test_decode_illegal : decode 0x25#32 = .illegal .unknownOpcode ∧
    decode 0b01_00000000000000_0_0_0_00000_00010000#32 = .illegal .fixedBitSet ∧
    decode 0b00_00000000000000_1_0_0_00000_00010001#32 = .illegal .fixedBitSet ∧
    decode 0b000000000000000000_1_00010_01000000#32 = .illegal .fixedBitSet ∧
    decode 0b000000000000000000_0_00001_01000011#32 = .illegal .fixedBitSet := by decide +kernel

theorem test_table_word : decodeTableWord 32 0x0211 = some (.revertLastGather false 2#5) ∧
    decodeTableWord 8 0x41 = some .serviceAnyPending ∧ decodeTableWord 32 0 = none := by decide +kernel

/-! ### Small states -/

/-- The answer is a next state with this property. -/
def nextWith (o : Outcome) (q : State → Bool) : Bool :=
  match o with
  | .next t => q t
  | _ => false

/-- The answer is this refusal. -/
def refusedAs (o : Outcome) (r : Refusal) : Bool :=
  match o with
  | .refused q => decide (q = r)
  | _ => false

/-- Port 0 with the given operand registers. -/
def portOf (x1 x2 x3 x4 : Nat) : Port := { Port.reset with x1 := x1, x2 := x2, x3 := x3, x4 := x4 }

/-- Eight pipes, the first given; two ports, the first given. -/
def world (e : PipeEntry) (p : Port) : State :=
  { State.reset with pipes := e :: List.replicate 7 PipeEntry.reset, ports := [p, Port.reset] }

/-- A source ring at `0x100000`. -/
def srcOf (cap sw hw wr : U32) (ctx : Sparse Nat) : SrcRing :=
  { cap := cap, base := 0x100000#32, owner := 0x7000, sw := sw, wr := wr, ctx := ctx, hw := hw }

/-- A destination ring at `0x200000`. -/
def dstOf (cap sw wr : U32) (ctx : Sparse Nat) : Ring :=
  { cap := cap, base := 0x200000#32, owner := 0x8000, sw := sw, wr := wr, ctx := ctx }

/-- An entry with the given phase and rings, both callbacks and a largest send of 2048. -/
def entryOf (phase : Phase) (src : Option SrcRing) (dst : Option Ring) : PipeEntry :=
  { PipeEntry.reset with pipe := { Pipe.reset with
      phase := phase, src := src, dst := dst, maxSendSize := 2048#32, hasSendCb := true, hasRecvCb := true } }

/-- Pipe 0 Active with these rings. -/
def activeWith (src : Option SrcRing) (dst : Option Ring) (p : Port) : State := world (entryOf .active src dst) p

/-- The same state with a control block for pipe 0. -/
def withCb (s : State) (cb : CtrlBlock) : State := s.updEntry 0 fun e => { e with cb := cb }

/-- The same state with inputs. -/
def fed (s : State) (l : List Input) : State := { s with inputs := l }

/-- The same state with the lock held by port `h`. -/
def lockedBy (s : State) (h : Nat) : State := { s with lockOwner := some h }

/-! ### One step: the spec's worked examples -/

/-- R206, R208 examples. -/
theorem test_lock : nextWith (exec .lock State.reset) (fun t => decide (t.lockOwner = some 0)) = true := by decide +kernel
theorem test_unlock : nextWith (exec .unlock (lockedBy State.reset 0)) (fun t => decide (t.lockOwner = none)) = true := by
  decide +kernel

def sSend : State := activeWith (some (srcOf 4#32 0#32 0#32 0#32 [])) none (portOf 0xA1 0x1000 64 0)

/-- R141 example. -/
theorem test_send : nextWith (exec (.send false 0#5 false false 5#14) sSend) (fun t => decide (
    Memory.descAddrWord t.mem 0x100000#32 0#32 = 0x1000#32 ∧ Memory.descLen t.mem 0x100000#32 0#32 = 64#16 ∧
    Memory.descFlags t.mem 0x100000#32 0#32 = 0x14#32 ∧ (t.entry 0).cb.srcWrIdx = 1#32 ∧ t.cur.x0 = 0 ∧
    (t.pipe 0).src = some (srcOf 4#32 0#32 0#32 1#32 [(0, 0xA1)]) ∧ t.lockOwner = none)) = true := by decide +kernel

/-- R144: a gather send publishes nothing; R146 (c): a long send is refused. -/
theorem test_send_gather : nextWith (exec (.send false 0#5 true false 5#14) sSend) (fun t =>
      decide ((t.entry 0).cb.srcWrIdx = 0#32 ∧ Memory.descFlags t.mem 0x100000#32 0#32 = 0x15#32)) = true ∧
    refusedAs (exec (.send false 0#5 false false 5#14)
      { sSend with ports := [portOf 0 0 0x10000 0] }) .lengthTooWide = true := by decide +kernel

def sRevert : State := activeWith (some (srcOf 4#32 0#32 0#32 2#32 [(0, 1), (1, 2)])) none Port.reset

/-- R147 example, first call; with the write index published there is nothing to take back. -/
theorem test_revert_last_gather : nextWith (exec (.revertLastGather false 0#5) sRevert) (fun t =>
      decide ((t.pipe 0).src = some (srcOf 4#32 0#32 0#32 1#32 [(0, 1)]))) = true ∧
    nextWith (exec (.revertLastGather false 0#5) (withCb sRevert { CtrlBlock.reset with srcWrIdx := 2#32 })) (fun t =>
      decide ((t.pipe 0).src = (sRevert.pipe 0).src ∧ .warn .nothingToRevert 0 0 ∈ t.trace)) = true := by decide +kernel

def sDone : State := withCb (activeWith (some (srcOf 4#32 0#32 0#32 2#32 [(0, 0xA1)])) none Port.reset)
  { CtrlBlock.reset with srcRdIdx := 1#32 }

/-- R150 example, both calls. -/
theorem test_completed_send_next : nextWith (exec (.completedSendNext false 0#5) sDone) (fun t =>
      decide ((t.pipe 0).src = some (srcOf 4#32 1#32 1#32 2#32 []) ∧ t.cur.x1 = 0xA1) &&
      nextWith (exec (.completedSendNext false 0#5) t) (fun u => decide (u.cur.x0 = 3))) = true := by decide +kernel

/-- R151: an all-ones read is Unsupported. -/
theorem test_completed_send_next_dead : nextWith (exec (.completedSendNext false 0#5) { sDone with devAlive := false })
    (fun t => decide (t.cur.x0 = 5 ∧ t.pipes = sDone.pipes)) = true := by decide +kernel

def sCancel : State :=
  let s := activeWith (some (srcOf 4#32 0#32 0#32 1#32 [(0, 0xA1)])) none Port.reset
  { s with mem := Memory.write4 (Memory.write4 (Memory.write4 [] 0x100000 0x1000#32) 0x100004 64#32) 0x100008 0x14#32 }

/-- R153 example, both calls. -/
theorem test_cancel_send_next : nextWith (exec (.cancelSendNext false 0#5) sCancel) (fun t =>
      decide (t.cur.x1 = 0xA1 ∧ t.cur.x2 = 0x1000 ∧ t.cur.x3 = 64 ∧ t.cur.x4 = 5) &&
      nextWith (exec (.cancelSendNext false 0#5) t) (fun u => decide (u.cur.x0 = 4))) = true := by decide +kernel

def sRing8 : State := activeWith (some (srcOf 8#32 1#32 1#32 3#32 [])) (some (dstOf 8#32 0#32 7#32 [])) Port.reset

/-- R140 and R160 examples. -/
theorem test_available_send_slots : nextWith (exec (.availableSendSlots false 0#5) sRing8)
    (fun t => decide (t.cur.x3 = 5)) = true := by decide +kernel
theorem test_available_recv_slots : nextWith (exec (.availableRecvSlots false 0#5) sRing8)
    (fun t => decide (t.cur.x3 = 0)) = true := by decide +kernel

def sPost : State := activeWith none (some (dstOf 8#32 0#32 0#32 [])) (portOf 0xB0 0x2000 5 0)

/-- R161 example; a full ring answers OutOfSpace. -/
theorem test_rx_post_buf : nextWith (exec (.rxPostBuf false 0#5) sPost) (fun t => decide (
      Memory.descAddrWord t.mem 0x200000#32 0#32 = 0x2000#32 ∧ (t.entry 0).cb.dstWrIdx = 1#32 ∧
      (t.pipe 0).dst = some (dstOf 8#32 0#32 1#32 [(0, 0xB0)]) ∧ t.cur.x0 = 0)) = true ∧
    nextWith (exec (.rxPostBuf false 0#5) sRing8) (fun t => decide (t.cur.x0 = 2)) = true := by decide +kernel

def sUpdate (n : Nat) : State := activeWith none (some (dstOf 8#32 2#32 5#32 [])) (portOf 0 0 n 0)

/-- R164 examples. -/
theorem test_rx_update_write_idx : nextWith (exec (.rxUpdateWriteIdx false 0#5) (sUpdate 5)) (fun t => decide (
      (t.pipe 0).dst = some (dstOf 8#32 2#32 1#32 []) ∧ (t.entry 0).cb.dstWrIdx = 1#32)) = true ∧
    nextWith (exec (.rxUpdateWriteIdx false 0#5) (sUpdate 3)) (fun t => decide (
      (t.pipe 0).dst = some (dstOf 8#32 2#32 0#32 []))) = true := by decide +kernel

def sRecv (len : U32) : State :=
  { activeWith none (some (dstOf 8#32 0#32 2#32 [(0, 0xB0)])) Port.reset with
    mem := Memory.write4 (Memory.write4 [] 0x200000 0x2000#32) 0x200004 len }

/-- R170 example: not yet filled, then filled with `0x5C` bytes. -/
theorem test_completed_recv_next : nextWith (exec (.completedRecvNext false 0#5) (sRecv 0#32))
      (fun t => decide (t.cur.x0 = 3 ∧ t.pipes = (sRecv 0#32).pipes)) = true ∧
    nextWith (exec (.completedRecvNext false 0#5) (sRecv 0x5C#32)) (fun t => decide (
      t.cur.x1 = 0xB0 ∧ t.cur.x3 = 0x5C ∧ Memory.descLen t.mem 0x200000#32 0#32 = 0#16 ∧
      (t.pipe 0).dst = some (dstOf 8#32 1#32 2#32 []))) = true := by decide +kernel

/-- R173 example. -/
theorem test_revoke_recv_next : nextWith (exec (.revokeRecvNext false 0#5) (sRecv 0#32)) (fun t => decide (
    t.cur.x1 = 0xB0 ∧ t.cur.x2 = 0x2000 ∧ (t.pipe 0).dst = some (dstOf 8#32 1#32 2#32 []))) = true := by
  decide +kernel

def sAlloc : State :=
  { world PipeEntry.reset (portOf 0 0 5 8) with allocs := [.region 0x9000 0x100000#32 [(0x100004, 7#8)]] }

/-- R190 example: 5 entries become 8, in a region of 96 bytes. -/
theorem test_alloc_pipe : nextWith (exec (.allocPipe false 1#5) sAlloc) (fun t =>
    decide ((t.pipe 1).phase = .allocated ∧ (t.pipe 1).src = none ∧ (t.pipe 1).hasRecvCb = true ∧ t.cur.x0 = 0 ∧
      .dmaAlloc 96 ∈ t.trace ∧ Memory.read t.mem 0x100004 = 7#8) &&
    (match (t.pipe 1).dst with
      | some r => decide (r.cap = 8#32 ∧ r.base = 0x100000#32 ∧ r.ctx = [])
      | none => false)) = true := by decide +kernel

/-- R191 example: a region that leaves the device's range fails. -/
theorem test_alloc_pipe_beyond_limit : nextWith (exec (.allocPipe false 1#5)
    { sAlloc with allocs := [.region 0 0xFFFFFFC0#32 []] }) (fun t =>
      decide (t.cur.x0 = 6 ∧ t.pipes = sAlloc.pipes ∧ .dmaRelease 0xFFFFFFC0#32 96 ∈ t.trace)) = true := by
  decide +kernel

def sInit : State :=
  { world (entryOf .allocated none (some (dstOf 8#32 3#32 4#32 []))) (portOf 0 0 0 8) with
    mem := Memory.write4 [] 0x200000 0xFFFFFFFF#32 }

/-- R192 example. -/
theorem test_init_pipe : nextWith (exec (.initPipe false 0#5) sInit) (fun t => decide (
    t.mem = [] ∧ (t.pipe 0).phase = .active ∧ (t.pipe 0).dst = some (dstOf 8#32 0#32 0#32 []) ∧
    (t.entry 0).cb.dstBase = 0x200000#32 ∧ (t.entry 0).cb.dstSize = 8#32 ∧ (t.entry 0).cb.dstWmHigh = 8#32)) = true := by
  decide +kernel

/-- R194 and R195: the base and size registers go, then the rings. -/
theorem test_deinit_pipe : nextWith (exec (.deinitPipe false 0#5)
    (withCb sPost { CtrlBlock.reset with dstBase := 0x200000#32, dstSize := 8#32, dstWmHigh := 8#32 })) (fun t =>
      decide ((t.entry 0).cb = { CtrlBlock.reset with dstWmHigh := 8#32 } ∧ (t.pipe 0).phase = .allocated)) = true := by
  decide +kernel
theorem test_free_pipe : nextWith (exec (.freePipe false 0#5) sInit) (fun t => decide (
    (t.pipe 0).phase = .unallocated ∧ (t.pipe 0).dst = none ∧ .dmaRelease 0x200000#32 96 ∈ t.trace)) = true := by
  decide +kernel

def sService : State := withCb sPost { CtrlBlock.reset with intStatus := 0x1F#32 }

/-- R180 example, phase A: `0x1F` becomes `0x1E`. -/
theorem test_service_pipe : nextWith (exec (.servicePipe 0#5) sService) (fun t => decide (
    (t.entry 0).cb.intStatus = 0x1E#32 ∧ t.cur.svc = some ⟨.beforeRecv 0, false, 0#32⟩)) = true := by decide +kernel

/-- R180 example, phase C: `0x1E` becomes 0. -/
theorem test_service_pipe_end : nextWith (step (fed (withCb { sPost with
      ports := [{ Port.reset with svc := some ⟨.phaseC 0, false, 0#32⟩ }] } { CtrlBlock.reset with intStatus := 0x1E#32 })
      [.advance 0])) (fun t => decide ((t.entry 0).cb.intStatus = 0#32 ∧ t.cur.svc = none ∧ t.cur.x0 = 0)) = true := by
  decide +kernel

/-- An entry that requests an interrupt. -/
def requesting : PipeEntry := { PipeEntry.reset with cb := { CtrlBlock.reset with intStatus := 1#32, intEnable := 1#32 } }

def sPending : State :=
  let e := PipeEntry.reset
  { State.reset with pipes := [e, e, requesting, e, e, requesting, e, e] }

/-- R183 example: summary `0x24`, pipe 2 is taken first. -/
theorem test_service_any_pending : nextWith (exec .serviceAnyPending sPending) (fun t =>
    decide (t.cur.svc = some ⟨.scan, true, 0x24#32⟩ ∧ sPending.irq = true) &&
    nextWith (step (fed t [.advance 0])) (fun u => decide (u.cur.svc = some ⟨.beforeRecv 2, true, 0x20#32⟩))) = true := by
  decide +kernel

/-- R186 example, with pipe 1 silenced. -/
theorem test_enable_interrupts :
    let quiet : PipeEntry := { PipeEntry.reset with pipe :=
      { Pipe.reset with phase := .allocated, hasRecvCb := true, interruptDisabled := true } }
    nextWith (exec (.enableInterrupts false) { State.reset with
        pipes := [entryOf .active none none, quiet, requesting, requesting, requesting, requesting, requesting, requesting] })
      (fun t => decide (t.pipes.map (fun e => e.cb.intEnable) = [1#32, 0, 0, 0, 0, 0, 0, 0])) = true := by decide +kernel
theorem test_disable_interrupts : nextWith (exec (.disableInterrupts false) sPending)
    (fun t => decide ((t.entry 2).cb.intEnable = 0#32 ∧ (t.entry 2).cb.intStatus = 1#32)) = true := by decide +kernel

/-- R207: a locked form waits for the other port's lock. -/
theorem test_wait_for_lock : nextWith (exec (.send false 0#5 false false 5#14) (lockedBy sSend 1))
    (fun t => decide (t.cur.waiting = some (.send false 0#5 false false 5#14) ∧ t.pipes = sSend.pipes)) = true := by
  decide +kernel

/-- R218 example: `0x5C` bytes arrive in slot 0. -/
theorem test_dev_dst_write_len : nextWith (step (fed (withCb sPost
      { CtrlBlock.reset with dstBase := 0x200000#32, dstSize := 8#32, dstWrIdx := 7#32 })
      [.devDstWriteLen 0 0x5C#16 0#16 none])) (fun t => decide (
        Memory.descLen t.mem 0x200000#32 0#32 = 0x5C#16 ∧ (t.entry 0).dev.dstLenIdx = 1#32)) = true := by decide +kernel

/-- An operation placed after reset is the next thing that runs. -/
theorem test_with_fetch_word : nextWith (step (State.reset.withFetchWord 32 0x01)) (fun t =>
      decide (t.lockOwner = some 0 ∧ t.inputs = [])) = true ∧
    refusedAs (step (State.reset.withFetchWord 32 0x10)) .pipeNotActive = true := by decide +kernel

/-! ### Witnesses: states and operands that meet the hypotheses of the statements, clause by clause -/

theorem witness_EncodeInvertsDecode : decode 0x2013#32 = .ok (.cancelSendNext true 0#5) := by decide +kernel

theorem witness_LegalWordsMatchExactlyOneRow : ∃ r ∈ opcodeRows, r.accepts 0x2013#32 = true :=
  ⟨⟨"cancel_send_next", .P, 0x00000013#32⟩, by decide +kernel⟩

theorem witness_StepRunsTheDecodedOperation : (fed State.reset [.command 0 0x01#32]).inputs = .command 0 0x01#32 :: [] ∧
    0 < (fed State.reset [.command 0 0x01#32]).nHosts ∧ ((fed State.reset [.command 0 0x01#32]).portAt 0).accepts = true ∧
    decode 0x01#32 = .ok .lock := by decide +kernel

theorem witness_IllegalWordsAreRefusedByStep : (fed State.reset [.command 0 0x25#32]).inputs = .command 0 0x25#32 :: [] ∧
    0 < State.reset.nHosts ∧ (State.reset.portAt 0).accepts = true ∧ decode 0x25#32 = .illegal .unknownOpcode := by
  decide +kernel

theorem witness_IllegalCommandsAreRefused : Instr.wf State.reset.nPipes (.freePipe false 8#5) = false ∧
    operandsOk (.rxPostBuf false 0#5) (portOf 0 0x100000000 0 0) = false := by decide +kernel

/-- Port 0 waits for the lock. -/
def sWaiting : State := { State.reset with
  ports := [{ Port.reset with waiting := some (.enableInterrupts false) }, Port.reset], lockOwner := some 1 }

theorem witness_PortWritesLandOnlyWhereAccepted : (sWaiting.portAt 0).accepts = false ∧
    1 < sWaiting.nHosts ∧ (sWaiting.portAt 1).accepts = true := by decide +kernel

/-- A port register of a block with 32-bit contexts keeps the low 32 bits of what software writes (R9, R21). -/
theorem test_write_keeps_width : nextWith (step { fed State.reset [.writeX 0 1 0x1_0000_0005] with
    cfg := { Config.ref with ctxW := 32 } }) (fun t => decide (t.cur.x1 = 5)) = true ∧
    nextWith (step (fed State.reset [.writeX 0 1 0x1_0000_0005])) (fun t => decide (t.cur.x1 = 0x1_0000_0005)) = true := by
  decide +kernel

theorem witness_IncrementAndDecrementWrap : 0 < 32 ∧ (0#32).toNat < 2 ^ 0 ∧ 31 < 32 ∧ (0x7FFFFFFF#32).toNat < 2 ^ 31 := by
  decide +kernel
theorem witness_AddIndexIsModular : 3 < 32 ∧ (6#32).toNat < 2 ^ 3 := by decide
theorem witness_AvailableSlotsIsModular : 3 < 32 ∧ (7#32).toNat < 2 ^ 3 ∧ (0#32).toNat < 2 ^ 3 := by decide
theorem witness_AvailablePlusOutstandingIsFull : 3 < 32 ∧ (7#32).toNat < 2 ^ 3 ∧ (1#32).toNat < 2 ^ 3 ∧
    availableSlots 7#32 6#32 1#32 ≠ 0#32 ∧ availableSlots 7#32 7#32 1#32 ≠ 7#32 := by decide +kernel
theorem witness_RoundupPow2IsLeast : 1 ≤ 1 ∧ 1 ≤ 2 ^ 31 ∧ 1 ≤ 2 ^ 31 ∧ 2 ^ 31 ≤ 2 ^ 31 ∧ roundupPow2 5 = 8 := by decide +kernel
theorem witness_RegisterAddressesAreDistinct : State.reset.cfg.mapOk State.reset.nPipes = true ∧ 7 < State.reset.nPipes := by
  decide +kernel
theorem witness_RegisterAccessFollowsLiveness : 0 < State.reset.nPipes ∧ State.reset.devAlive = true ∧
    { State.reset with devAlive := false }.devAlive = false := by decide +kernel

/-! The lock -/

theorem witness_LockAndUnlockMoveTheLock : State.reset.port < State.reset.nHosts ∧ State.reset.lockOwner = none ∧
    (lockedBy State.reset 0).port < (lockedBy State.reset 0).nHosts ∧
    (lockedBy State.reset 0).lockOwner = some (lockedBy State.reset 0).port ∧
    State.reset.lockOwner ≠ some State.reset.port ∧ (lockedBy State.reset 1).lockOwner = some 1 ∧
    1 ≠ (lockedBy State.reset 1).port := by decide +kernel
theorem witness_NolockFormNeedsTheLock :
    (Instr.send true 0#5 false false 0#14).wf State.reset.nPipes = true ∧
    operandsOk (.send true 0#5 false false 0#14) State.reset.cur = true ∧ State.reset.lockOwner ≠ some State.reset.port ∧
    nextWith (exec (.enableInterrupts true) (lockedBy State.reset 0)) (fun _ => true) = true := by decide +kernel
theorem witness_OwnerCannotRelock : (Instr.send false 0#5 false false 0#14).nolock? ≠ some true ∧
    Instr.serviceAnyPending.nolock? ≠ some true ∧ (Instr.send false 0#5 false false 0#14).wf State.reset.nPipes = true ∧
    operandsOk (.send false 0#5 false false 0#14) (lockedBy State.reset 0).cur = true ∧
    (lockedBy State.reset 0).lockOwner = some (lockedBy State.reset 0).port := by decide +kernel
theorem witness_HeldLockMakesOperationWait : (Instr.send false 0#5 false false 0#14).nolock? = some false ∧
    (Instr.send false 0#5 false false 0#14).wf sSend.nPipes = true ∧
    operandsOk (.send false 0#5 false false 0#14) (lockedBy sSend 1).cur = true ∧ (lockedBy sSend 1).lockOwner = some 1 ∧
    1 ≠ (lockedBy sSend 1).port ∧ 0 < sSend.nPipes ∧ (lockedBy sSend 1).cur.svc = none := by decide +kernel
theorem witness_WaitingOperationResumes : (fed sWaiting [.advance 0]).inputs = .advance 0 :: [] ∧ 0 < sWaiting.nHosts ∧
    (sWaiting.portAt 0).waiting = some (.enableInterrupts false) ∧ sWaiting.lockOwner = some 1 ∧ 1 ≠ 0 ∧
    (Instr.enableInterrupts false).wf sWaiting.nPipes = true ∧
    operandsOk (.enableInterrupts false) (sWaiting.portAt 0) = true := by decide +kernel
theorem witness_LockedFormIsAcquireNolockRelease : (Instr.send false 0#5 false false 0#14).nolock? = some false ∧
    sSend.lockOwner = none := by decide +kernel

/-! The send path -/

/-- Pipe 0 with a source ring of four slots, three outstanding, and a length of `x3`. -/
def sFull (x3 : Nat) : State := activeWith (some (srcOf 4#32 0#32 0#32 3#32 [])) none (portOf 0 0 x3 0)

theorem witness_SendEnqueuesOneDescriptor :
    SrcReady false 0#5 (srcOf 4#32 0#32 0#32 0#32 []) sSend ∧ sendOperandsOk sSend.cur = true ∧
    sSend.cur.x3 < 2 ^ 16 ∧ availableSlots 3#32 0#32 0#32 ≠ 0#32 ∧ sSend.slotInSpace 0x100000#32 0#32 = true ∧
    SrcReady false 0#5 (srcOf 4#32 0#32 0#32 3#32 []) (sFull 0xFFFF) ∧ sendOperandsOk (sFull 0xFFFF).cur = true ∧
    (sFull 0xFFFF).cur.x3 < 2 ^ 16 ∧ availableSlots 3#32 3#32 0#32 = 0#32 ∧
    sendOperandsOk (sFull 0x10000).cur = true ∧ 2 ^ 16 ≤ (sFull 0x10000).cur.x3 := by decide +kernel
theorem witness_send_nolock : SrcReady true 0#5 (srcOf 4#32 0#32 0#32 0#32 []) (lockedBy sSend 0) := by decide +kernel
theorem witness_RevertLastGatherTakesBackOne :
    SrcReady false 0#5 (srcOf 4#32 0#32 0#32 2#32 [(0, 1), (1, 2)]) sRevert ∧
    (2#32 : U32) ≠ 0#32 ∧ (2#32 : U32) ≠ (sRevert.entry 0).cb.srcWrIdx &&& 3#32 ∧
    SrcReady false 0#5 (srcOf 4#32 0#32 0#32 0#32 []) sSend ∧ (srcOf 4#32 0#32 0#32 0#32 []).wr = 0#32 := by decide +kernel
theorem witness_AvailableSlotQueriesOnlyReport : SrcReady false 0#5 (srcOf 8#32 1#32 1#32 3#32 []) sRing8 ∧
    DstReady false 0#5 (dstOf 8#32 0#32 7#32 []) sRing8 := by decide +kernel

/-- The cached index is ahead: no register read is needed. -/
def sCached : State := activeWith (some (srcOf 4#32 0#32 1#32 2#32 [(0, 0xA1)])) none Port.reset

theorem witness_CompletedSendNextHandsOutOldest :
    SrcReady false 0#5 (srcOf 4#32 0#32 0#32 2#32 [(0, 0xA1)]) sDone ∧ sDone.slotInSpace 0x100000#32 0#32 = true ∧
    sDone.devAlive = true ∧ (sDone.entry 0).cb.srcRdIdx = 1#32 ∧
    SrcReady false 0#5 (srcOf 4#32 0#32 1#32 2#32 [(0, 0xA1)]) sCached ∧ sCached.slotInSpace 0x100000#32 0#32 = true := by
  decide +kernel
theorem witness_CompletedSendNextReportsNothing : SrcReady false 0#5 (srcOf 4#32 0#32 0#32 0#32 []) sSend ∧
    sSend.devAlive = true ∧ (sSend.entry 0).cb.srcRdIdx &&& 3#32 = 0#32 ∧
    SrcReady false 0#5 (srcOf 4#32 0#32 0#32 0#32 []) { sSend with devAlive := false } := by decide +kernel
theorem witness_CancelSendNextDrainsOldest : SrcReady false 0#5 (srcOf 4#32 0#32 0#32 1#32 [(0, 0xA1)]) sCancel ∧
    sCancel.slotInSpace 0x100000#32 0#32 = true ∧ SrcReady false 0#5 (srcOf 4#32 0#32 0#32 0#32 []) sSend := by
  decide +kernel
theorem witness_RingCallsAreRefusedByRule : usesSrc (.cancelSendNext false 0#5) = true ∧
    usesDst (.revokeRecvNext false 0#5) = true ∧ PipeReady false 0#5 sInit ∧ (sInit.pipe 0).phase ≠ .active ∧
    operandsOk (.cancelSendNext false 0#5) sInit.cur = true ∧ PipeReady false 0#5 sPost ∧ (sPost.pipe 0).phase = .active ∧
    (sPost.pipe 0).src = none ∧ PipeReady false 0#5 sSend ∧ (sSend.pipe 0).phase = .active ∧ (sSend.pipe 0).dst = none := by
  decide +kernel

/-! The receive path -/

/-- The pipe that reuses contexts, its ring full. -/
def sReuse : State := sRing8.setPipe 0 { sRing8.pipe 0 with reusesReceiveContext := true }

theorem witness_RxPostBufPostsAndPublishes : DstReady false 0#5 (dstOf 8#32 0#32 0#32 []) sPost ∧
    postOperandsOk sPost.cur = true ∧ availableSlots 7#32 0#32 0#32 ≠ 0#32 ∧ sPost.slotInSpace 0x200000#32 0#32 = true ∧
    DstReady false 0#5 (dstOf 8#32 0#32 7#32 []) sReuse ∧ (sReuse.pipe 0).reusesReceiveContext = true ∧
    sReuse.slotInSpace 0x200000#32 7#32 = true ∧ DstReady false 0#5 (dstOf 8#32 0#32 7#32 []) sRing8 ∧
    availableSlots 7#32 7#32 0#32 = 0#32 ∧ (sRing8.pipe 0).reusesReceiveContext = false := by decide +kernel
theorem witness_RxUpdateWriteIdxAdvances : DstReady false 0#5 (dstOf 8#32 2#32 5#32 []) (sUpdate 5) ∧
    countOperandOk (sUpdate 5).cur = true ∧ BitVec.ofNat 32 5 ≠ 0#32 ∧
    DstReady false 0#5 (dstOf 8#32 2#32 5#32 []) (sUpdate 0) ∧ countOperandOk (sUpdate 0).cur = true := by
  decide +kernel
theorem witness_dstOf_ok (sw wr : U32) (hs : sw.toNat < 8) (hw : wr.toNat < 8) : (dstOf 8#32 sw wr []).ok Config.ref :=
  ⟨⟨3, by decide, rfl⟩, hs, hw, (by decide : (0x200000#32 : U32).toNat % 4 = 0), (by decide : 0x200000 + 8 * 12 ≤ 0x100000000), .nil, fun _ he => nomatch he⟩
theorem witness_RxUpdateInRangeKeepsReservedSlot :
    (DstReady false 0#5 (dstOf 8#32 2#32 5#32 []) (sUpdate 1) ∧ (dstOf 8#32 2#32 5#32 []).ok (sUpdate 1).cfg ∧
      1 ≤ (sUpdate 1).cur.x3 ∧ (sUpdate 1).cur.x3 ≤ (availableSlots 7#32 5#32 2#32).toNat + 1) ∧
    (DstReady false 0#5 (dstOf 8#32 2#32 5#32 []) (sUpdate 5) ∧
      (sUpdate 5).cur.x3 = (availableSlots 7#32 5#32 2#32).toNat + 1) :=
  ⟨⟨by decide +kernel, witness_dstOf_ok 2#32 5#32 (by decide) (by decide), by decide +kernel, by decide +kernel⟩,
    by decide +kernel, by decide +kernel⟩
theorem witness_CompletedRecvNextReturnsByteCount :
    DstReady false 0#5 (dstOf 8#32 0#32 2#32 [(0, 0xB0)]) (sRecv 0x5C#32) ∧
    (sRecv 0x5C#32).slotInSpace 0x200000#32 0#32 = true ∧
    (Memory.read4 (sRecv 0x5C#32).mem (descAddr 0x200000#32 0#32 + 4)).extractLsb' 0 16 ≠ 0#16 ∧
    DstReady false 0#5 (dstOf 8#32 0#32 2#32 [(0, 0xB0)]) (sRecv 0#32) ∧
    (Memory.read4 (sRecv 0#32).mem (descAddr 0x200000#32 0#32 + 4)).extractLsb' 0 16 = 0#16 := by decide +kernel
theorem witness_RevokeRecvNextDrainsOldest : DstReady false 0#5 (dstOf 8#32 0#32 2#32 [(0, 0xB0)]) (sRecv 0#32) ∧
    (sRecv 0#32).slotInSpace 0x200000#32 0#32 = true ∧ DstReady false 0#5 (dstOf 8#32 0#32 0#32 []) sPost := by
  decide +kernel

/-! The lifecycle -/

/-- Both directions asked for: a source ring of 4 and a destination ring of 8 descriptors. -/
def sAllocBoth (second : AllocAnswer) : State :=
  { world PipeEntry.reset (portOf 4 0 5 8) with allocs := [.region 0x9000 0x100000#32 [], second] }

theorem witness_AllocPipeCreatesRings : PipeReady false 1#5 (sAllocBoth (.region 0x9100 0x200000#32 [])) ∧
    allocOperandsOk (sAllocBoth .fail).cur = true ∧ ((sAllocBoth .fail).pipe 1).phase = .unallocated ∧
    (sAllocBoth .fail).isDiag 1 = false ∧
    Grants 4 (firstAnswer (sAllocBoth .fail)) (some ⟨4, 0x9000, 0x100000#32, []⟩) ∧
    Grants 5 (dstAnswer (sAllocBoth (.region 0x9100 0x200000#32 [])) 4) (some ⟨8, 0x9100, 0x200000#32, []⟩) ∧
    KeepsContract Config.ref 0x100000 48 (sAllocBoth .fail).regions ∧ 0x100000 + 48 ≤ Config.ref.devAddrLimit ∧
    KeepsContract Config.ref 0x200000 96 [(0x100000, 48)] ∧ 0x200000 + 96 ≤ Config.ref.devAddrLimit :=
  ⟨by decide +kernel, by decide +kernel, by decide +kernel, by decide +kernel, ⟨by decide, by decide +kernel, rfl⟩,
    ⟨by decide, by decide +kernel, rfl⟩, by decide +kernel, by decide +kernel, by decide +kernel, by decide +kernel⟩
theorem witness_AllocPipeCreatesRings_diag : (sAllocBoth .fail).isDiag 7 = true ∧ attrInterruptDisabled 1 = true ∧
    Grants 0 (firstAnswer (sAllocBoth .fail)) none := ⟨by decide +kernel, by decide, rfl⟩
theorem witness_AllocPipeFailsWhole : PipeReady false 1#5 (sAllocBoth .fail) ∧
    (Grants 4 (firstAnswer (sAllocBoth .fail)) (some ⟨4, 0x9000, 0x100000#32, []⟩) ∧
      FailsFor Config.ref 5 (dstAnswer (sAllocBoth .fail) 4) [(0x100000, 48)]) ∧
    FailsFor Config.ref 5 (.region 0 0xFFFFFFC0#32 []) [] :=
  ⟨by decide +kernel, ⟨⟨by decide, by decide +kernel, rfl⟩, by decide, .inl rfl⟩,
    by decide, .inr ⟨0, 0xFFFFFFC0#32, [], rfl, by decide +kernel, by decide +kernel⟩⟩
theorem witness_LifecycleCallsOutOfPhaseAreRefused : PipeReady false 0#5 sInit ∧ allocOperandsOk sInit.cur = true ∧
    (sInit.pipe 0).phase ≠ .unallocated ∧ PipeReady false 7#5 sAlloc ∧ allocOperandsOk sAlloc.cur = true ∧
    (sAlloc.pipe 7).phase = .unallocated ∧ 7 = sAlloc.nPipes - 1 ∧ sAlloc.cur.x4.testBit 0 = false ∧
    initOperandsOk sAlloc.cur = true := by decide +kernel
theorem witness_AllocPipeFailsWhole_source :
    PipeReady false 1#5 { sAllocBoth .fail with allocs := [.region 0 0xFFFFFFE0#32 []] } ∧
    FailsFor Config.ref 4 (firstAnswer { sAllocBoth .fail with allocs := [.region 0 0xFFFFFFE0#32 []] })
      (sAllocBoth .fail).regions :=
  ⟨by decide +kernel, by decide, .inr ⟨0, 0xFFFFFFE0#32, [], rfl, by decide +kernel, by decide +kernel⟩⟩
theorem witness_misaligned_destination :
    Grants 4 (firstAnswer (sAllocBoth (.region 0 0x200002#32 []))) (some ⟨4, 0x9000, 0x100000#32, []⟩) ∧
    (sAllocBoth .fail).cur.x3 ≠ 0 ∧ dstAnswer (sAllocBoth (.region 0 0x200002#32 [])) 4 = .region 0 0x200002#32 [] ∧
    Grants 0 (firstAnswer { sAlloc with allocs := [.region 0 0x200002#32 []] }) none ∧
    dstAnswer { sAlloc with allocs := [.region 0 0x200002#32 []] } 0 = .region 0 0x200002#32 [] ∧
    (0x200002#32).toNat % Config.ref.ringAlign ≠ 0 :=
  ⟨⟨by decide, by decide +kernel, rfl⟩, by decide +kernel, rfl, rfl, rfl, by decide +kernel⟩
theorem witness_misaligned_region : PipeReady false 1#5
      { sAllocBoth .fail with allocs := [.region 0 0x100002#32 []] } ∧
    (sAllocBoth .fail).cur.x1 ≠ 0 ∧
    firstAnswer { sAllocBoth .fail with allocs := [.region 0 0x100002#32 []] } = .region 0 0x100002#32 [] ∧
    (0x100002#32).toNat % Config.ref.ringAlign ≠ 0 := ⟨by decide +kernel, by decide +kernel, rfl, by decide +kernel⟩
theorem witness_InitPipeZeroesSeedsAndPublishes : PipeReady false 0#5 sInit ∧ initOperandsOk sInit.cur = true ∧
    (sInit.pipe 0).phase ≠ .unallocated ∧ sInit.ringsInSpace (sInit.pipe 0) = true ∧ sInit.devAlive = true ∧
    { sInit with devAlive := false }.devAlive = false := by decide +kernel
theorem witness_DeinitPipeTakesRingsFromDevice : PipeReady false 0#5 sPost ∧ (sPost.entry 0).pipe.phase = .active ∧
    PipeReady false 0#5 sInit ∧ (sInit.entry 0).pipe.phase ≠ .active := by decide +kernel
theorem witness_FreePipeReleasesRings : PipeReady false 0#5 sInit ∧ (sInit.pipe 0).phase = .allocated ∧
    PipeReady false 0#5 sPost ∧ (sPost.pipe 0).phase ≠ .allocated := by decide +kernel

/-! Interrupt service -/

/-- Port 0 inside a service of pipe 0 at this stage, one input to come. -/
def sStage (st : SvcStage) (enclosed : Bool) (rem : U32) (a : Input) : State :=
  { sPost with ports := [{ Port.reset with svc := some ⟨st, enclosed, rem⟩ }, Port.reset], inputs := [a] }

theorem witness_ServicePipeClearsStatusFirst : sService.port < sService.nHosts ∧ 0 < sService.nPipes ∧
    sService.lockOwner = none ∧ sService.cur.svc = none ∧ (sStage (.inRecv 0) false 0#32 (.advance 0)).cur.svc ≠ none ∧
    (sStage (.inRecv 0) false 0#32 (.advance 0)).lockOwner ≠ some 0 := by decide +kernel
theorem witness_CallbacksRunReceiveThenSend : 0 < sPost.nHosts ∧
    ((sStage (.beforeRecv 0) false 0#32 (.advance 0)).portAt 0).waiting = none ∧
    ((sStage (.beforeRecv 0) false 0#32 (.advance 0)).portAt 0).svc = some ⟨.beforeRecv 0, false, 0#32⟩ ∧
    (sStage (.beforeSend 0) false 0#32 (.advance 0)).inputs = .advance 0 :: [] ∧
    (sStage (.inRecv 0) false 0#32 (.callbackReturn 0)).inputs = .callbackReturn 0 :: [] ∧
    (sPost.pipe 0).phase ≠ .unallocated ∧ (sPost.pipe 0).hasRecvCb = true ∧ (sPost.pipe 0).hasSendCb = true ∧
    (sPost.pipe 1).phase = .unallocated ∧ sPost.lockOwner ≠ some 0 ∧ (lockedBy sPost 0).lockOwner = some 0 := by
  decide +kernel
theorem witness_ServicePipeEndsWithWatermarkClear : 0 < sPost.nHosts ∧ 0 < sPost.nPipes ∧
    (sStage (.phaseC 0) true 4#32 (.advance 0)).inputs = .advance 0 :: [] ∧
    ((sStage (.phaseC 0) true 4#32 (.advance 0)).portAt 0).waiting = none ∧
    ((sStage (.phaseC 0) true 4#32 (.advance 0)).portAt 0).svc = some ⟨.phaseC 0, true, 4#32⟩ ∧
    (sStage (.phaseC 0) true 4#32 (.advance 0)).lockOwner = none ∧
    (lockedBy (sStage (.phaseC 0) true 4#32 (.advance 0)) 1).lockOwner = some 1 := by decide +kernel
theorem witness_ServiceAnyPendingReadsSummaryOnce : sPending.port < sPending.nHosts ∧ sPending.nPipes ≤ 32 ∧
    sPending.lockOwner ≠ some sPending.port ∧ sPending.cur.svc = none := by decide +kernel
theorem witness_WaitingOperationResumes_phaseA : 0 < sPost.nHosts ∧ 0 < sPost.nPipes ∧
    (sStage (.phaseA 0) true 4#32 (.advance 0)).inputs = .advance 0 :: [] ∧
    ((sStage (.phaseA 0) true 4#32 (.advance 0)).portAt 0).waiting = none ∧
    ((sStage (.phaseA 0) true 4#32 (.advance 0)).portAt 0).svc = some ⟨.phaseA 0, true, 4#32⟩ ∧
    (sStage (.phaseA 0) true 4#32 (.advance 0)).lockOwner = none ∧
    (lockedBy (sStage (.phaseA 0) true 4#32 (.advance 0)) 1).lockOwner = some 1 := by decide +kernel
theorem witness_ServiceAnyPendingTakesLowestPipe :
    ((sStage .scan true 0x24#32 (.advance 0)).portAt 0).svc = some ⟨.scan, true, 0x24#32⟩ ∧ sPost.nPipes ≤ 32 ∧
    (lockedBy (sStage .scan true 0x24#32 (.advance 0)) 1).lockOwner = some 1 ∧
    2 < sPost.nPipes ∧ (0x24#32).getLsbD 2 = true ∧ (∀ j, j < 2 → (0x24#32).getLsbD j = false) ∧ sPost.lockOwner = none ∧
    ∀ j, j < sPost.nPipes → (0#32).getLsbD j = false := by decide +kernel
theorem witness_InterruptEnablesFollowPolicy : MayEnter false sPost ∧ MayEnter true (lockedBy sPost 0) ∧
    (sPost.pipe 0).phase ≠ .unallocated ∧ (sPost.pipe 0).hasSendCb = true ∧ (sPost.pipe 0).interruptDisabled = false ∧
    (sPost.pipe 1).phase = .unallocated := by decide +kernel
theorem witness_SummaryBitsFollowStatusAndEnable : sPending.nPipes ≤ 32 ∧ 2 < sPending.nPipes ∧ sPending.nPipes ≤ 8 := by
  decide +kernel

/-! The device -/

/-- Both directions configured with four slots; `rd` and `wr` are the index registers. -/
def sDevice (rd wr : U32) (a : Input) : State := fed (withCb sPost
  { CtrlBlock.reset with srcBase := 0x100000#32, srcSize := 4#32, srcRdIdx := rd, srcWrIdx := wr,
                         dstBase := 0x200000#32, dstSize := 4#32, dstRdIdx := rd, dstWrIdx := wr }) [a]

theorem witness_DevSrcCompleteAdvancesIndex : (sDevice 0#32 3#32 (.devSrcComplete 0)).inputs = .devSrcComplete 0 :: [] ∧
    0 < sPost.nPipes ∧ ((sDevice 0#32 3#32 (.devSrcComplete 0)).entry 0).cb.srcSize ≠ 0#32 ∧
    (0#32 : U32) ≠ 3#32 ∧ (sDevice 0#32 3#32 (.devSrcComplete 0)).slotInSpace 0x100000#32 0#32 = true ∧
    (sPost.entry 0).cb.srcSize = 0#32 := by decide +kernel
theorem witness_DevDstWriteLenFillsSlot :
    ((sDevice 0#32 3#32 (.devDstWriteLen 0 5#16 0#16 (some 9#32))).entry 0).cb.dstSize ≠ 0#32 ∧
    ((sDevice 0#32 3#32 (.devDstWriteLen 0 5#16 0#16 (some 9#32))).entry 0).dev.dstLenIdx = 0#32 ∧
    (5#16 : U16) ≠ 0#16 ∧ (sDevice 0#32 3#32 (.devDstWriteLen 0 5#16 0#16 none)).slotInSpace 0x200000#32 0#32 = true ∧
    (sPost.entry 0).cb.dstSize = 0#32 := by decide +kernel
theorem witness_DeviceAdvancesAndRaisesStatus :
    (((sDevice 0#32 3#32 (.devDstAdvance 0)).entry 0).cb.dstSize ≠ 0#32 ∧
      ((sDevice 0#32 3#32 (.devDstAdvance 0)).entry 0).cb.dstRdIdx ≠ ((sDevice 0#32 3#32 (.devDstAdvance 0)).entry 0).cb.dstWrIdx) ∧
    (sPost.entry 0).cb.dstSize = 0#32 ∧ (sPost.entry 0).dev.ccPending = false ∧
    ((sPost.deviceWrite 0 (fun c => c) (fun d => { d with ccPending := true })).entry 0).dev.ccPending = true ∧
    0x22#32 &&& (Config.ref.wmMask ||| Config.ref.errMask) = 0x22#32 := by decide +kernel
theorem witness_DeviceTouchesOnlyItsOwn : isDeviceMove (.devSrcComplete 0) = true ∧
    nextWith (step (sDevice 0#32 3#32 (.devSrcComplete 0))) (fun t => decide ((t.entry 0).cb.srcRdIdx = 1#32)) = true := by
  decide +kernel
theorem witness_OutsideMovesChangeOneThing : (fed sPost [.envDeviceDies]).inputs = .envDeviceDies :: [] ∧
    (fed sPost [.hostStore 0x200004 9#32]).inputs = .hostStore 0x200004 9#32 :: [] ∧ 0x200004 % 4 = 0 ∧
    (∃ g ∈ sPost.regions, g.1 ≤ 0x200004 ∧ 0x200004 + 4 ≤ g.1 + g.2) ∧ 0x200006 % 4 ≠ 0 := by decide +kernel

/-! Invariants -/

theorem witness_StepKeepsMemoryCanonical : Memory.wf sCancel.mem ∧
    nextWith (step (fed sCancel [.command 0 0x13#32])) (fun t => decide (t.mem ≠ sCancel.mem)) = true := by decide +kernel

/-- Pipe 0 of this state has a sound destination ring, every other pipe none. -/
theorem witness_PipesOk : PipesOk (fed sPost [.command 0 0x20#32]) := by
  intro e he
  rcases List.mem_cons.1 he with rfl | he
  · exact ⟨by decide, fun r hr => by cases hr; exact witness_dstOf_ok 0#32 0#32 (by decide) (by decide), by decide⟩
  · obtain ⟨_, rfl⟩ := List.mem_replicate.1 he
    exact ⟨by decide, by decide, by decide⟩
theorem witness_StepKeepsPipesSound :
    nextWith (step (fed sPost [.command 0 0x20#32])) (fun t => decide (t.pipes ≠ sPost.pipes)) = true := by decide +kernel
theorem witness_StepKeepsPipesSound_width : WidthOk (fed sPost [.command 0 0x20#32]) := by decide +kernel
theorem witness_StepKeepsRegionsDisjoint : RegionsDisjoint sRing8 ∧ sRing8.regions.length = 2 := by decide +kernel
theorem witness_StepKeepsDiagnosticPipeSilent : DiagOk sPost ∧ LockOk (lockedBy sPost 1) := by decide +kernel
theorem witness_NoOperationFaultsInSoundState : PipesOk (fed sPost [.command 0 0x20#32]) ∧
    (sPost.pipe 0).dst = some (dstOf 8#32 0#32 0#32 []) := ⟨witness_PipesOk, by decide +kernel⟩
theorem witness_OnlyCopyCompleteIsEverEnabled : nextWith (step (fed sPost [.command 0 0x42#32]))
    (fun t => decide ((t.entry 0).cb.intEnable = 1#32)) = true := by decide +kernel
theorem witness_ErrorStatusAndDeathAreNeverUndone : nextWith (step (fed sService [.envDeviceDies]))
      (fun t => !t.devAlive) = true ∧ sService.cfg.ccMask &&& sService.cfg.errMask = 0#32 ∧
    sService.cfg.wmMask &&& sService.cfg.errMask = 0#32 := by decide +kernel

end Sys2Proof.Tests
end

section
/-! The interfaces of spec/00_scope.md: the rounding of a ring's capacity (R10) and the register accesses (R16). -/

namespace Sys2Proof.Machine

/-! ### `roundup_pow2` (R10) -/

/-- Started at `2 ^ i`, the doubling ends at the least power of two that is at least `n`, where its exponent is neither
below `i` nor out of the fuel's reach. -/
theorem doubleUntil_eq_two_pow_clog (n fuel i : Nat) (hlow : i ≤ Nat.clog 2 n) (hreach : Nat.clog 2 n ≤ i + fuel) :
    doubleUntil n fuel (2 ^ i) = 2 ^ Nat.clog 2 n := by
  induction fuel generalizing i with
  | zero => exact congrArg (2 ^ ·) (le_antisymm hlow hreach)
  | succ fuel ih =>
    by_cases hn : n ≤ 2 ^ i
    · have hi : Nat.clog 2 n = i := le_antisymm (Nat.clog_le_of_le_pow hn) hlow
      simp [doubleUntil, hn, hi]
    · have hi : i < Nat.clog 2 n := (Nat.lt_clog_iff_pow_lt Nat.one_lt_two).2 (not_le.1 hn)
      calc doubleUntil n (fuel + 1) (2 ^ i) = doubleUntil n fuel (2 ^ (i + 1)) := by
            simp [doubleUntil, hn, pow_succ']
        _ = 2 ^ Nat.clog 2 n := ih (i + 1) hi (by omega)

/-- Over the legal range of R10 the exponent of `roundup_pow2` is the rounded-up binary logarithm. -/
theorem roundupPow2_eq_two_pow_clog (n : Nat) (h : n ≤ 2 ^ 31) : roundupPow2 n = 2 ^ Nat.clog 2 n :=
  doubleUntil_eq_two_pow_clog n 31 0 (Nat.zero_le _) (by simpa using Nat.clog_le_of_le_pow h)

/-- Settles O13: `roundup_pow2` is `2 ^ ⌈log₂ n⌉`, whose exponent is the least that reaches `n`. -/
theorem roundupPow2IsLeast : Obligations.RoundupPow2IsLeast := by
  intro n _ hmax
  rw [roundupPow2_eq_two_pow_clog n hmax]
  have hexp : Nat.clog 2 n < 32 := Nat.lt_succ_of_le (Nat.clog_le_of_le_pow hmax)
  refine ⟨⟨_, hexp, rfl⟩, Nat.le_pow_clog Nat.one_lt_two n, fun j hj => ?_, fun k hk => ?_⟩
  · exact Nat.pow_le_pow_right Nat.two_pos (Nat.clog_le_of_le_pow hj)
  · rw [hk, Nat.clog_pow 2 k Nat.one_lt_two]

/-! ### Register accesses (R16, R45, R46) -/

/-- What a control block holds after a register write: the register named takes the value, `INT_STATUS` loses the bits
written as 1 (R45), and every other register keeps what it held. -/
theorem CtrlBlock.get_put (cb : CtrlBlock) (v : U32) (f g : RegField) :
    (cb.put v f).get g =
      if g = f then (if f = .intStatus then clearBits (cb.get f) v else v) else cb.get g := by
  cases f <;> cases g <;> rfl

/-- The register that was written. -/
theorem CtrlBlock.get_put_same (cb : CtrlBlock) (v : U32) (f : RegField) :
    (cb.put v f).get f = if f = .intStatus then cb.get f &&& ~~~v else v := by
  simp [CtrlBlock.get_put, clearBits]

/-- Every other register. -/
theorem CtrlBlock.get_put_other (cb : CtrlBlock) (v : U32) (f g : RegField) (h : g ≠ f) :
    (cb.put v f).get g = cb.get g := by
  simp [CtrlBlock.get_put, h]

/-- A device that responds gives what the register holds (R16). -/
theorem State.regRead_of_alive (s : State) (r : RegId) (h : s.devAlive = true) : s.regRead r = s.regValue r := by
  simp [State.regRead, h]

/-- A device that does not respond reads as all ones (R46). -/
theorem State.regRead_of_dead (s : State) (r : RegId) (h : s.devAlive = false) : s.regRead r = allOnes := by
  simp [State.regRead, h]

/-- The entry of the pipe whose register a responding device was told to write (R16). -/
theorem State.regWrite_entry_same (s : State) (id : Nat) (f : RegField) (v : U32) (hid : id < s.nPipes)
    (h : s.devAlive = true) : (s.regWrite (.block id f) v).entry id = (s.entry id).put v f := by
  simp [State.regWrite_entry, hid, h]

/-- A register write leaves the entry of every other pipe as it was. -/
theorem State.regWrite_entry_other (s : State) (id j : Nat) (f : RegField) (v : U32) (hj : j ≠ id) :
    (s.regWrite (.block id f) v).entry j = s.entry j := by
  simp [State.regWrite_entry, hj]

/-- Settles O16: a responding device puts the value into the named register of the named pipe alone; one that does not
respond answers all ones and takes nothing. -/
theorem registerAccessFollowsLiveness : Obligations.RegisterAccessFollowsLiveness := by
  intro s id f v hid
  refine ⟨fun halive => ?_, fun hdead => ?_⟩
  · rw [State.regWrite_entry_same s id f v hid halive]
    exact ⟨State.regRead_of_alive s _ halive, State.regWrite_nPipes s _ v, CtrlBlock.get_put_same _ v f,
      fun g hg => CtrlBlock.get_put_other _ v f g hg, rfl, fun j hj => State.regWrite_entry_other s id j f v hj⟩
  · exact ⟨State.regRead_of_dead s _ hdead, State.regWrite_dead_pipes s _ v hdead⟩

end Sys2Proof.Machine
end

section
/-! The tables of the state: what every entry and every port satisfies, pipes after an update, contexts within `CTX_W`
bits. -/

namespace Sys2Proof.Machine

/-! ### Every entry of a table -/

/-- A table read with a default that satisfies `Q`: every entry does exactly when every read does. -/
theorem forall_mem_iff_getD {α : Type} (l : List α) (d : α) {Q : α → Prop} (hd : Q d) :
    (∀ a ∈ l, Q a) ↔ ∀ i, Q (l.getD i d) := by
  refine ⟨fun h i => ?_, fun h a ha => ?_⟩
  · by_cases hi : i < l.length
    · simpa [hi] using h _ (List.getElem_mem hi)
    · simpa [hi] using hd
  · obtain ⟨i, hi, rfl⟩ := List.getElem_of_mem ha
    simpa [hi] using h i

theorem State.forall_entry_iff (s : State) {Q : PipeEntry → Prop} (hd : Q PipeEntry.reset) :
    (∀ e ∈ s.pipes, Q e) ↔ ∀ id, Q (s.entry id) := forall_mem_iff_getD s.pipes PipeEntry.reset hd

theorem State.forall_portAt_iff (s : State) {Q : Port → Prop} (hd : Q Port.reset) :
    (∀ p ∈ s.ports, Q p) ↔ ∀ h, Q (s.portAt h) := forall_mem_iff_getD s.ports Port.reset hd

/-- A port after one port was written. -/
theorem State.portAt_set (s : State) (h k : Nat) (p : Port) :
    ({ s with ports := s.ports.set h p } : State).portAt k = if k = h ∧ h < s.nHosts then p else s.portAt k := by
  by_cases hk : k = h
  · subst hk
    by_cases hlt : k < s.ports.length <;> simp [State.portAt, State.nHosts, List.getD_eq_getElem?_getD, hlt]
  · simp [State.portAt, List.getD_eq_getElem?_getD, hk, Ne.symm hk]

/-! ### Pipes after an update -/

/-- A pipe after one pipe was written. -/
theorem State.setPipe_pipe (s : State) (id j : Nat) (p : Pipe) :
    (s.setPipe id p).pipe j = if j = id ∧ id < s.nPipes then p else s.pipe j := by
  unfold State.pipe
  rw [State.setPipe_entry]
  split <;> rfl

/-- A register write leaves every pipe as it was. -/
@[simp] theorem State.regWrite_pipe (s : State) (id j : Nat) (f : RegField) (v : U32) :
    (s.regWrite (.block id f) v).pipe j = s.pipe j := by
  unfold State.pipe
  rw [State.regWrite_entry]
  split
  · next h => rw [h.1]; rfl
  · rfl

/-- The device leaves every pipe as it was. -/
@[simp] theorem State.deviceWrite_pipe (s : State) (id j : Nat) (f : CtrlBlock → CtrlBlock)
    (g : DeviceState → DeviceState) : (s.deviceWrite id f g).pipe j = s.pipe j := by
  unfold State.pipe
  rw [State.deviceWrite_entry]
  split
  · next h => rw [h.1]
  · rfl

/-- Writing a source ring keeps every phase. -/
@[simp] theorem State.setSrc_phase (s : State) (id j : Nat) (r : SrcRing) :
    ((s.setSrc id r).pipe j).phase = (s.pipe j).phase := by
  unfold State.setSrc
  rw [State.setPipe_pipe]
  split
  · next h => rw [h.1]
  · rfl

/-- Writing a destination ring keeps every phase. -/
@[simp] theorem State.setDst_phase (s : State) (id j : Nat) (r : Ring) :
    ((s.setDst id r).pipe j).phase = (s.pipe j).phase := by
  unfold State.setDst
  rw [State.setPipe_pipe]
  split
  · next h => rw [h.1]
  · rfl

/-- Only a pipe of the table has a source ring. -/
theorem State.lt_nPipes_of_src {s : State} {id : Nat} {r : SrcRing} (h : (s.pipe id).src = some r) : id < s.nPipes := by
  by_contra hid
  have : s.pipes[id]? = none := List.getElem?_eq_none (not_lt.1 hid)
  simp [State.pipe, State.entry, List.getD_eq_getElem?_getD, this, PipeEntry.reset, Pipe.reset] at h

/-- The source ring that was written. -/
theorem State.setSrc_src {s : State} {id : Nat} (r : SrcRing) (hid : id < s.nPipes) :
    ((s.setSrc id r).pipe id).src = some r := by
  simp [State.setSrc, State.setPipe_pipe, hid]

/-! ### Contexts within `CTX_W` bits (R9, R27) -/

/-- Every context a pipe stores is below `n`. -/
def Pipe.contextsBelow (n : Nat) (p : Pipe) : Prop :=
  (∀ r ∈ p.src, ∀ c ∈ r.ctx, c.2 < n) ∧ ∀ r ∈ p.dst, ∀ c ∈ r.ctx, c.2 < n

/-- `WidthOk` read through the accessors of the tables. -/
theorem widthOk_iff (s : State) :
    WidthOk s ↔ 32 ≤ s.cfg.ctxW ∧ (∀ h, (s.portAt h).fits (2 ^ s.cfg.ctxW)) ∧
      ∀ id, (s.pipe id).contextsBelow (2 ^ s.cfg.ctxW) := by
  have hport : Port.reset.fits (2 ^ s.cfg.ctxW) := by simp [Port.fits, Port.reset]
  have hpipe : PipeEntry.reset.pipe.contextsBelow (2 ^ s.cfg.ctxW) := by
    simp [Pipe.contextsBelow, PipeEntry.reset, Pipe.reset]
  exact and_congr_right' (and_congr (s.forall_portAt_iff hport)
    (s.forall_entry_iff (Q := fun e => e.pipe.contextsBelow (2 ^ s.cfg.ctxW)) hpipe))

/-- What a sparse array gives for a key is listed. -/
theorem mem_of_sparseGet {α : Type} {m : Sparse α} {a : Nat} {v : α} (h : sparseGet m a = some v) : (a, v) ∈ m := by
  induction m with
  | nil => cases h
  | cons c rest ih =>
    obtain ⟨k, w⟩ := c
    unfold sparseGet at h
    split at h
    · next hk => simp_all
    · exact List.mem_cons_of_mem _ (ih h)

/-- A context of a ring, read as a result, is below what bounds the ring's contexts. -/
theorem Ring.contextResult_lt {r : Ring} {n : Nat} (i : U32) (hn : 0 < n) (h : ∀ c ∈ r.ctx, c.2 < n) :
    contextResult (r.context i) < n := by
  unfold contextResult
  cases hc : r.context i with
  | none => exact hn
  | some c => exact h _ (mem_of_sparseGet hc)

theorem WidthOk.context_src {s : State} {id : Nat} {r : SrcRing} (hr : (s.pipe id).src = some r) (i : U32)
    (hs : WidthOk s) : contextResult (r.toRing.context i) < 2 ^ s.cfg.ctxW :=
  Ring.contextResult_lt i (Nat.two_pow_pos _) ((((widthOk_iff s).1 hs).2.2 id).1 r hr)

theorem WidthOk.context_dst {s : State} {id : Nat} {r : Ring} (hr : (s.pipe id).dst = some r) (i : U32)
    (hs : WidthOk s) : contextResult (r.context i) < 2 ^ s.cfg.ctxW :=
  Ring.contextResult_lt i (Nat.two_pow_pos _) ((((widthOk_iff s).1 hs).2.2 id).2 r hr)

end Sys2Proof.Machine
end

section
/-! What one step can do, said once: every next state of `step` is reached by elementary changes (`step_changes`). An
invariant of the machine is then one case analysis over `Change`, carried along by `Changes.keeps`. -/

namespace Sys2Proof.Machine

/-! ### Changes of a ring, of a control block, and what a new region is -/

/-- An index an operation leaves in a ring: the old one, or a value cut by the ring's mask (R28). -/
def IndexUpdated (mask i i' : U32) : Prop := i' = i ∨ ∃ v, i' = v &&& mask

/-- A ring after a data-path operation: capacity and base stay, indices are masked, and at most one context goes, or `x1`
comes in at the write index (R27, R28). -/
structure Ring.Updated (x1 : Nat) (r r' : Ring) : Prop where
  cap : r'.cap = r.cap
  base : r'.base = r.base
  sw : IndexUpdated r.mask r.sw r'.sw
  wr : IndexUpdated r.mask r.wr r'.wr
  ctx : r'.ctx = r.ctx ∨ (∃ i, r'.ctx = sparseErase r.ctx i) ∨ r'.ctx = sparseSet r.ctx r.wr.toNat x1

/-- A source ring after a data-path operation. -/
structure SrcRing.Updated (x1 : Nat) (r r' : SrcRing) : Prop where
  ring : r.toRing.Updated x1 r'.toRing
  hw : IndexUpdated r.mask r.hw r'.hw

/-- What the block writes to a control-block register: the two interrupt registers take whole groups only (R44, R45). -/
def HostMayWrite (c : Config) (v : U32) : RegField → Prop
  | .intEnable => v = c.ccMask ∨ v = 0#32
  | .intStatus => v = c.ccMask ∨ v = c.wmMask
  | _ => True

/-- What the device does to a control block: it never enables an interrupt and only raises status bits (R45, R222). -/
def DeviceMayApply (f : CtrlBlock → CtrlBlock) : Prop :=
  ∀ cb, (f cb).intEnable = cb.intEnable ∧ ∃ m, (f cb).intStatus = cb.intStatus ||| m

/-- A region `alloc_pipe` accepts: a legal capacity, the allocator's contract kept, inside the device's range (R72, R77,
R191). -/
structure NewRegion.Granted (c : Config) (taken : List Region) (g : NewRegion) : Prop where
  cap : ∃ k, k < 32 ∧ g.cap = 2 ^ k
  contract : KeepsContract c g.da.toNat g.bytes taken
  inRange : g.da.toNat + g.bytes ≤ c.devAddrLimit

/-! ### Elementary changes -/

/-- The elementary changes a step is made of, each with the conditions under which the machine makes it. -/
inductive Change (s : State) : State → Prop
  /-- Inputs and answers are used up, free values are drawn, outputs are recorded. -/
  | bookkeeping (as : List AllocAnswer) (d : Nat) (is : List Input) (tr : List Event) :
      Change s { s with allocs := as, draws := d, inputs := is, trace := tr }
  /-- The device stops responding (R223). -/
  | death : Change s { s with devAlive := false }
  /-- Another port runs. -/
  | turn (h : Nat) : Change s (s.onPort h)
  /-- The running port takes the lock (R206). -/
  | acquire (hport : s.port < s.nHosts) : Change s s.acquire
  /-- The lock becomes free (R208). -/
  | release : Change s s.release
  /-- A 4-byte field of memory is stored (R14). -/
  | store (a : Nat) (v : U32) : Change s { s with mem := Memory.write4 s.mem a v }
  /-- A range of memory is zeroed (R192). -/
  | zero (a n : Nat) : Change s { s with mem := Memory.zero s.mem a n }
  /-- A region brings the contents the allocator returned (R191). -/
  | install (a n : Nat) (contents : List (Nat × Byte)) :
      Change s { s with mem := Memory.install s.mem a n contents }
  /-- A port's waiting operation and service progress change (R24). -/
  | progress (h : Nat) (w : Option Instr) (v : Option Svc) :
      Change s { s with ports := s.ports.set h { s.portAt h with waiting := w, svc := v } }
  /-- A port register takes a value that fits it (R21). -/
  | operand (h : Nat) (i : Fin 5) (v : Nat) (hv : WidthOk s → v < 2 ^ s.cfg.ctxW) :
      Change s { s with ports := s.ports.set h ((s.portAt h).put i v) }
  /-- The block writes a control-block register (R16). -/
  | register (id : Nat) (f : RegField) (v : U32) (hv : HostMayWrite s.cfg v f) : Change s (s.regWrite (.block id f) v)
  /-- The device changes a control block and its hidden state (R217 to R222). -/
  | device (id : Nat) (f : CtrlBlock → CtrlBlock) (g : DeviceState → DeviceState) (hf : DeviceMayApply f) :
      Change s (s.deviceWrite id f g)
  /-- An operation updates a source ring. -/
  | srcRing (id : Nat) (r r' : SrcRing) (hr : (s.pipe id).src = some r) (hu : r.Updated s.cur.x1 r') :
      Change s (s.setSrc id r')
  /-- An operation updates a destination ring. -/
  | dstRing (id : Nat) (r r' : Ring) (hr : (s.pipe id).dst = some r) (hu : r.Updated s.cur.x1 r') :
      Change s (s.setDst id r')
  /-- A pipe with rings changes its phase (R192, R194). -/
  | phase (id : Nat) (ph : Phase) (hold : (s.pipe id).phase ≠ .unallocated) (hnew : ph ≠ .unallocated) :
      Change s (s.setPhase id ph)
  /-- A pipe is created with fresh rings in the regions granted for them (R190, R191, R200). -/
  | create (id d : Nat) (src dst : Option NewRegion) (hphase : (s.pipe id).phase = .unallocated)
      (hdiag : s.isDiag id = true → attrInterruptDisabled s.cur.x4 = true)
      (hsrc : ∀ g ∈ src, g.Granted s.cfg s.regions)
      (hdst : ∀ g ∈ dst, g.Granted s.cfg ((src.map NewRegion.region).toList ++ s.regions)) :
      Change s (s.setPipe id
        (allocatedPipe s.cur (src.map fun g => freshSrcRing g d) (dst.map fun g => freshRing g (d + 3))))
  /-- A pipe loses its rings (R195). -/
  | free (id : Nat) (hphase : (s.pipe id).phase = .allocated) :
      Change s (s.setPipe id { s.pipe id with phase := .unallocated, src := none, dst := none })

/-- `t` is reached from `s` by elementary changes. -/
abbrev Changes : State → State → Prop := Relation.ReflTransGen Change

/-- What every elementary change keeps, every sequence of them keeps. -/
theorem Changes.keeps {P : State → Prop} (hP : ∀ s t, Change s t → P s → P t) {s t : State} (h : Changes s t)
    (hs : P s) : P t := by
  induction h with
  | refl => exact hs
  | tail _ hc ih => exact hP _ _ hc ih

end Sys2Proof.Machine
end

section
/-! The named updates of the state as elementary changes: each lemma lengthens a sequence of changes by one update. -/

namespace Sys2Proof.Machine

section
variable {s t : State}

/-! ### Outputs, memory and registers -/

theorem Changes.emit (h : Changes s t) (e : Event) : Changes s (t.emit e) :=
  h.tail (.bookkeeping t.allocs t.draws t.inputs (e :: t.trace))

theorem Changes.warn (h : Changes s t) (k : WarnKind) (id : Nat) : Changes s (t.warn k id) := h.emit _

theorem Changes.noteRead (h : Changes s t) (r : RegId) : Changes s (t.noteRead r) := h.emit _

theorem Changes.barrier (h : Changes s t) : Changes s t.barrier := h.emit _

theorem Changes.memWrite (h : Changes s t) (a : Nat) (v : U32) : Changes s (t.memWrite a v) :=
  Changes.emit (h.tail (.store a v)) (.memWrite a v)

theorem Changes.writeDesc (h : Changes s t) (base i addr : U32) (len : U16) (flags : U32) :
    Changes s (t.writeDesc base i addr len flags) :=
  ((h.memWrite _ _).memWrite _ _).memWrite _ _

theorem Changes.clearLen (h : Changes s t) (base i : U32) : Changes s (t.clearLen base i) := h.memWrite _ _

theorem Changes.zeroRing (h : Changes s t) (r : Ring) : Changes s (t.zeroRing r) :=
  Changes.emit (h.tail (.zero r.base.toNat r.bytes)) (.memZero r.base.toNat r.bytes)

theorem Changes.deviceFill (h : Changes s t) (base i : U32) (len upper : U16) (flags : Option U32) :
    Changes s (t.deviceFill base i len upper flags) := by
  have hlen : Changes s { t with mem := Memory.write4 t.mem (lenWordAt base i) (upper ++ len) } := h.tail (.store _ _)
  cases flags with
  | none => exact hlen
  | some f => exact hlen.tail (.store (flagsWordAt base i) f)

theorem Changes.installRegion (h : Changes s t) (g : Option NewRegion) : Changes s (t.installRegion g) := by
  cases g with
  | none => exact h
  | some g => exact h.tail (.install g.da.toNat g.bytes g.contents)

theorem Changes.releaseNew (h : Changes s t) (g : Option NewRegion) : Changes s (t.releaseNew g) := by
  cases g with
  | none => exact h
  | some g => exact h.emit _

theorem Changes.releaseRing (h : Changes s t) (ring : Option Ring) : Changes s (t.releaseRing ring) := by
  cases ring with
  | none => exact h
  | some r => exact h.emit _

theorem Changes.regWrite (h : Changes s t) (id : Nat) (f : RegField) (v : U32) (hv : HostMayWrite t.cfg v f) :
    Changes s (t.regWrite (.block id f) v) := h.tail (.register id f v hv)

theorem Changes.publishSrc (h : Changes s t) (id : Nat) (r : SrcRing) : Changes s (t.publishSrc id r) :=
  h.barrier.regWrite _ _ _ trivial

theorem Changes.publishDst (h : Changes s t) (id : Nat) (r : Ring) : Changes s (t.publishDst id r) :=
  h.barrier.regWrite _ _ _ trivial

/-- The loop over the interrupt enables, where every value is one the block may write (R186, R187). -/
theorem Changes.writeEnables (h : Changes s t) (value : Nat → U32) (k id : Nat)
    (hv : ∀ j, HostMayWrite t.cfg (value j) .intEnable) : Changes s (State.writeEnables value k id t) := by
  induction k generalizing id t with
  | zero => exact h
  | succ k ih => exact ih (h.regWrite id .intEnable (value id) (hv id)) (id + 1) hv

/-! ### The running port and the lock -/

theorem Changes.setSvc (h : Changes s t) (v : Option Svc) : Changes s (t.setSvc v) :=
  h.tail (.progress t.port t.cur.waiting v)

theorem Changes.setWaiting (h : Changes s t) (w : Option Instr) : Changes s (t.setCur { t.cur with waiting := w }) :=
  h.tail (.progress t.port w t.cur.svc)

theorem Changes.park (h : Changes s t) (i : Instr) : Changes s (t.park i) := h.setWaiting _

theorem Changes.setX1 (h : Changes s t) (v : Nat) (hv : WidthOk t → v < 2 ^ t.cfg.ctxW) : Changes s (t.setX1 v) :=
  h.tail (.operand t.port 1 v hv)

/-- A result of at most 32 bits always fits (R109). -/
theorem Changes.setX2 (h : Changes s t) {w : Nat} (v : BitVec w) (hw : w ≤ 32) : Changes s (t.setX2 (result v)) :=
  h.tail (.operand t.port 2 _ fun ht => result_lt t v hw ht.1)

theorem Changes.setX3 (h : Changes s t) {w : Nat} (v : BitVec w) (hw : w ≤ 32) : Changes s (t.setX3 (result v)) :=
  h.tail (.operand t.port 3 _ fun ht => result_lt t v hw ht.1)

theorem Changes.setX4 (h : Changes s t) {w : Nat} (v : BitVec w) (hw : w ≤ 32) : Changes s (t.setX4 (result v)) :=
  h.tail (.operand t.port 4 _ fun ht => result_lt t v hw ht.1)

theorem Changes.returnStatus (h : Changes s t) (st : Status) : Changes s (t.returnStatus st) :=
  h.tail (.operand t.port 0 (statusCode st) fun ht => statusCode_lt t st ht.1)

theorem Changes.leave (h : Changes s t) (nl : Bool) : Changes s (t.leave nl) := by
  cases nl with
  | true => exact h
  | false => exact h.tail .release

theorem Changes.finish (h : Changes s t) (nl : Bool) (st : Status) : Changes s (t.finish nl st) :=
  (h.leave nl).returnStatus st

/-! ### Rings and pipes -/

theorem Changes.setSrc (h : Changes s t) {id : Nat} {r r' : SrcRing} (hr : (t.pipe id).src = some r)
    (hu : r.Updated t.cur.x1 r') : Changes s (t.setSrc id r') := h.tail (.srcRing id r r' hr hu)

theorem Changes.setDst (h : Changes s t) {id : Nat} {r r' : Ring} (hr : (t.pipe id).dst = some r)
    (hu : r.Updated t.cur.x1 r') : Changes s (t.setDst id r') := h.tail (.dstRing id r r' hr hu)

end

end Sys2Proof.Machine
end

section
/-! Every next state of every operation is reached by elementary changes. -/

namespace Sys2Proof.Machine

section
variable {s t : State}

/-! ### The shared shape of an operation (R210) -/

/-- A locked operation makes elementary changes where its body does; the body finds the operands as they were. -/
theorem State.locked_changes {i : Instr} {nl legal : Bool} {body : State → Outcome} (hport : s.port < s.nHosts)
    (h : s.locked i nl legal body = .next t)
    (hbody : ∀ u : State, u.cur = s.cur → body u = .next t → Changes u t) : Changes s t := by
  obtain ⟨-, -, ⟨-, -, -, rfl⟩ | ⟨-, hb⟩⟩ := State.locked_next s t i nl legal body h
  · exact Changes.park .refl i
  · exact .head (.acquire hport) (hbody _ rfl hb)

/-! ### Ring updates -/

/-- Freeing the oldest slot of a source ring: its context goes and `sw` advances (R150, R153). -/
theorem SrcRing.updated_free (x1 : Nat) (r : SrcRing) :
    r.Updated x1 { r with toRing := (r.toRing.clearContext r.sw).advanceSw } :=
  ⟨⟨rfl, rfl, .inr ⟨_, rfl⟩, .inl rfl, .inr (.inl ⟨_, rfl⟩)⟩, .inl rfl⟩

/-- Freeing the oldest slot of a destination ring, the context kept or not (R171, R173). -/
theorem Ring.updated_free (x1 : Nat) (r : Ring) (keep : Bool) :
    r.Updated x1 (if keep then r.advanceSw else (r.clearContext r.sw).advanceSw) := by
  cases keep with
  | true => exact ⟨rfl, rfl, .inr ⟨_, rfl⟩, .inl rfl, .inl rfl⟩
  | false => exact ⟨rfl, rfl, .inr ⟨_, rfl⟩, .inl rfl, .inr (.inl ⟨_, rfl⟩)⟩

/-- Filling the slot at the write index with the context `x1` (R141, R161). -/
theorem Ring.updated_fill (x1 : Nat) (r : Ring) : r.Updated x1 (r.setContext r.wr x1).advanceWr :=
  ⟨rfl, rfl, .inl rfl, .inr ⟨_, rfl⟩, .inr (.inr rfl)⟩

/-- Taking the last enqueue back (R147). -/
theorem SrcRing.updated_reverted (x1 : Nat) (r : SrcRing) : r.Updated x1 r.reverted :=
  ⟨⟨rfl, rfl, .inl rfl, .inr ⟨_, rfl⟩, .inr (.inl ⟨_, rfl⟩)⟩, .inl rfl⟩

theorem Changes.freeSrcSlot (h : Changes s t) {id : Nat} {r : SrcRing} (hr : (t.pipe id).src = some r) :
    Changes s (t.freeSrcSlot id r) :=
  (h.clearLen r.base r.sw).setSrc hr (SrcRing.updated_free _ r)

theorem Changes.freeDstSlot (h : Changes s t) {id : Nat} {r : Ring} (hr : (t.pipe id).dst = some r) (keep : Bool) :
    Changes s (t.freeDstSlot id r keep) :=
  (h.clearLen r.base r.sw).setDst hr (Ring.updated_free _ r keep)

/-! ### The send path (R140 to R154) -/

theorem execAvailableSendSlots_changes {nl : Bool} {p : PipeField} (hport : s.port < s.nHosts)
    (h : execAvailableSendSlots nl p s = .next t) : Changes s t := by
  refine State.locked_changes hport h fun u _ hb => ?_
  obtain ⟨r, -, -, hb⟩ := State.withSrc_next _ _ _ _ hb
  cases hb
  exact (Changes.setX3 .refl _ le_rfl).finish nl .ok

theorem Changes.warnOversized (h : Changes s t) (id : Nat) : Changes s (t.warnOversized id) := by
  unfold State.warnOversized
  split
  · exact h.warn _ _
  · exact h

theorem State.warnOversized_pipe (u : State) (id j : Nat) : (u.warnOversized id).pipe j = u.pipe j := by
  unfold State.warnOversized
  split <;> rfl

theorem Changes.enqueueSend (h : Changes s t) {id : Nat} {r : SrcRing} (hr : (t.pipe id).src = some r) (g bs : Bool)
    (tid : TidField) : Changes s (t.enqueueSend id r g bs tid) := by
  have hset := (h.writeDesc r.base r.wr (low32 t.cur.x2) (BitVec.ofNat 16 t.cur.x3) (flagsWord tid bs g)).setSrc hr
    (r' := { r with toRing := (r.toRing.setContext r.wr t.cur.x1).advanceWr }) ⟨Ring.updated_fill _ _, .inl rfl⟩
  cases g with
  | true => exact hset
  | false => exact hset.publishSrc id _

theorem execSend_changes {nl : Bool} {p : PipeField} {g bs : Bool} {tid : TidField} (hport : s.port < s.nHosts)
    (h : execSend nl p g bs tid s = .next t) : Changes s t := by
  refine State.locked_changes hport h fun u _ hb => ?_
  obtain ⟨r, -, hr, hb⟩ := State.withSrc_next _ _ _ _ hb
  have hwarn : Changes u (u.warnOversized p.toNat) := Changes.warnOversized .refl _
  split at hb
  · cases hb
  · split at hb
    · cases hb
      exact hwarn.finish nl .outOfResources
    · obtain ⟨-, hb⟩ := State.withSlot_next _ _ _ _ _ hb
      cases hb
      exact (hwarn.enqueueSend (by rw [State.warnOversized_pipe, hr]) g bs tid).finish nl .ok

theorem execRevertLastGather_changes {nl : Bool} {p : PipeField} (hport : s.port < s.nHosts)
    (h : execRevertLastGather nl p s = .next t) : Changes s t := by
  refine State.locked_changes hport h fun u _ hb => ?_
  obtain ⟨r, -, hr, hb⟩ := State.withSrc_next _ _ _ _ hb
  have hread : Changes u (u.noteRead (.block p.toNat .srcWrIdx)) := Changes.noteRead .refl _
  dsimp only at hb
  split at hb
  · cases hb
    exact (hread.setSrc hr (SrcRing.updated_reverted _ r)).finish nl .ok
  · cases hb
    exact (hread.warn _ _).finish nl .ok

/-- The lazy refresh records a read and may refresh the cached index; the ring it goes on with is the pipe's (R150,
R151). -/
theorem State.lazyRefresh_changes {u : State} {id : Nat} {r : SrcRing} (hr : (u.pipe id).src = some r) :
    (∃ v, u.lazyRefresh id r = .unsupported v ∧ Changes u v) ∨
    ∃ v r', u.lazyRefresh id r = .ready v r' ∧ Changes u v ∧ (v.pipe id).src = some r' := by
  have hread : Changes u (u.noteRead (.block id .srcRdIdx)) := Changes.noteRead .refl _
  obtain ⟨-, e⟩ | ⟨-, -, e⟩ | ⟨-, -, e⟩ := State.lazyRefresh_cases u id r
  · exact .inr ⟨_, _, e, .refl, hr⟩
  · exact .inl ⟨_, e, hread⟩
  · exact .inr ⟨_, _, e, hread.setSrc hr ⟨⟨rfl, rfl, .inl rfl, .inl rfl, .inl rfl⟩, .inr ⟨_, rfl⟩⟩,
      State.setSrc_src _ (State.lt_nPipes_of_src hr)⟩

/-- The results of a freed slot can be written first: registers and rings are different parts of the state. -/
theorem State.freeSrcSlot_setCur (u : State) (id : Nat) (r : SrcRing) (p : Port) :
    (u.freeSrcSlot id r).setCur p = (u.setCur p).freeSrcSlot id r := rfl

theorem State.freeSrcSlot_cur (u : State) (id : Nat) (r : SrcRing) : (u.freeSrcSlot id r).cur = u.cur := rfl

theorem State.freeSrcSlot_setX1 (u : State) (id v : Nat) (r : SrcRing) :
    (u.freeSrcSlot id r).setX1 v = (u.setX1 v).freeSrcSlot id r := rfl

theorem execCompletedSendNext_changes {nl : Bool} {p : PipeField} (hport : s.port < s.nHosts)
    (h : execCompletedSendNext nl p s = .next t) : Changes s t := by
  refine State.locked_changes hport h fun u _ hb => ?_
  obtain ⟨r, -, hr, hb⟩ := State.withSrc_next _ _ _ _ hb
  obtain ⟨v, e, hv⟩ | ⟨v, r', e, hv, hr'⟩ := State.lazyRefresh_changes hr <;> rw [e] at hb
  · cases hb
    exact hv.finish nl .unsupported
  · dsimp only at hb
    split at hb
    · cases hb
      exact hv.finish nl .notReady
    · obtain ⟨-, hb⟩ := State.withSlot_next _ _ _ _ _ hb
      cases hb
      rw [State.freeSrcSlot_setX1]
      exact ((hv.setX1 _ (WidthOk.context_src hr' _)).freeSrcSlot hr').finish nl .ok

theorem State.freeSrcSlot_setDrained (u : State) (id : Nat) (r q : SrcRing) (m : Memory) :
    (u.freeSrcSlot id r).setDrained q m = (u.setDrained q m).freeSrcSlot id r := by
  simp only [State.setDrained, State.setX1, State.setX2, State.setX3, State.setX4, State.freeSrcSlot_setCur,
    State.freeSrcSlot_cur]

theorem execCancelSendNext_changes {nl : Bool} {p : PipeField} (hport : s.port < s.nHosts)
    (h : execCancelSendNext nl p s = .next t) : Changes s t := by
  refine State.locked_changes hport h fun u _ hb => ?_
  obtain ⟨r, -, hr, hb⟩ := State.withSrc_next _ _ _ _ hb
  split at hb
  · cases hb
    exact Changes.finish .refl nl .noData
  · obtain ⟨-, hb⟩ := State.withSlot_next _ _ _ _ _ hb
    cases hb
    rw [State.freeSrcSlot_setDrained]
    have hdrained : Changes u (u.setDrained r u.mem) :=
      (((Changes.setX1 .refl _ (WidthOk.context_src hr _)).setX2 _ le_rfl).setX3 _ (by decide)).setX4 _ (by decide)
    exact (hdrained.freeSrcSlot hr).finish nl .ok

/-! ### The receive path (R160 to R174) -/

theorem execAvailableRecvSlots_changes {nl : Bool} {p : PipeField} (hport : s.port < s.nHosts)
    (h : execAvailableRecvSlots nl p s = .next t) : Changes s t := by
  refine State.locked_changes hport h fun u _ hb => ?_
  obtain ⟨r, -, -, hb⟩ := State.withDst_next _ _ _ _ hb
  cases hb
  exact (Changes.setX3 .refl _ le_rfl).finish nl .ok

theorem Changes.postBuffer (h : Changes s t) {id : Nat} {r : Ring} (hr : (t.pipe id).dst = some r) :
    Changes s (t.postBuffer id r) :=
  ((h.writeDesc r.base r.wr (low32 t.cur.x2) 0#16 0#32).setDst hr (Ring.updated_fill _ r)).publishDst id _

theorem execRxPostBuf_changes {nl : Bool} {p : PipeField} (hport : s.port < s.nHosts)
    (h : execRxPostBuf nl p s = .next t) : Changes s t := by
  refine State.locked_changes hport h fun u _ hb => ?_
  obtain ⟨r, -, hr, hb⟩ := State.withDst_next _ _ _ _ hb
  split at hb
  · cases hb
    exact Changes.finish .refl nl .outOfSpace
  · obtain ⟨-, hb⟩ := State.withSlot_next _ _ _ _ _ hb
    cases hb
    exact (Changes.postBuffer .refl hr).finish nl .ok

theorem execRxUpdateWriteIdx_changes {nl : Bool} {p : PipeField} (hport : s.port < s.nHosts)
    (h : execRxUpdateWriteIdx nl p s = .next t) : Changes s t := by
  refine State.locked_changes hport h fun u _ hb => ?_
  obtain ⟨r, -, hr, hb⟩ := State.withDst_next _ _ _ _ hb
  dsimp only at hb
  split at hb
  · cases hb
  · cases hb
    have hset := Changes.setDst .refl hr (r' := { r with wr := addIndex r.mask r.wr (guardedAdvance r (low32 u.cur.x3)) })
      ⟨rfl, rfl, .inl rfl, .inr ⟨_, rfl⟩, .inl rfl⟩
    exact (hset.publishDst p.toNat _).finish nl .ok

theorem State.freeDstSlot_setX1 (u : State) (id v : Nat) (r : Ring) (keep : Bool) :
    (u.freeDstSlot id r keep).setX1 v = (u.setX1 v).freeDstSlot id r keep := rfl

theorem execCompletedRecvNext_changes {nl : Bool} {p : PipeField} (hport : s.port < s.nHosts)
    (h : execCompletedRecvNext nl p s = .next t) : Changes s t := by
  refine State.locked_changes hport h fun u _ hb => ?_
  obtain ⟨r, -, hr, hb⟩ := State.withDst_next _ _ _ _ hb
  obtain ⟨-, hb⟩ := State.withSlot_next _ _ _ _ _ hb
  dsimp only at hb
  split at hb
  · cases hb
    exact Changes.finish .refl nl .notReady
  · cases hb
    rw [State.freeDstSlot_setX1]
    exact (((Changes.setX1 .refl _ (WidthOk.context_dst hr _)).freeDstSlot hr _).setX3 _ (by decide)).finish nl .ok

theorem execRevokeRecvNext_changes {nl : Bool} {p : PipeField} (hport : s.port < s.nHosts)
    (h : execRevokeRecvNext nl p s = .next t) : Changes s t := by
  refine State.locked_changes hport h fun u _ hb => ?_
  obtain ⟨r, -, hr, hb⟩ := State.withDst_next _ _ _ _ hb
  split at hb
  · cases hb
    exact Changes.finish .refl nl .noData
  · obtain ⟨-, hb⟩ := State.withSlot_next _ _ _ _ _ hb
    cases hb
    rw [State.freeDstSlot_setX1]
    exact (((Changes.setX1 .refl _ (WidthOk.context_dst hr _)).freeDstSlot hr false).setX2 _ le_rfl).finish nl .ok

/-! ### The lifecycle (R190 to R197) -/

/-- Asking the allocator uses its answers, draws values and records outputs, and changes nothing else (R17, log 10). -/
def Answered (u v : State) : Prop := ∃ as d tr, v = { u with allocs := as, draws := d, trace := tr }

theorem Changes.answered {v : State} (h : Changes s t) (hv : Answered t v) : Changes s v := by
  obtain ⟨as, d, tr, rfl⟩ := hv
  exact h.tail (.bookkeeping as d t.inputs tr)

/-- A side of `alloc_pipe` that is got has a granted region, where it has one (R190, R191). -/
theorem State.allocSide_got {u v : State} {n : Nat} {taken : List Region} {g : Option NewRegion} (hn : n ≤ 2 ^ 31)
    (h : u.allocSide n taken = .got v g) : Answered u v ∧ ∀ r ∈ g, r.Granted u.cfg taken := by
  obtain ⟨-, e⟩ | ⟨-, w, hw, e | e | ⟨_, e⟩ | ⟨va, da, contents, e, halign, hdisj, hlim⟩⟩ :=
    State.allocSide_cases u n taken <;> rw [e] at h
  · cases h
    exact ⟨⟨_, _, _, rfl⟩, by simp⟩
  · cases h
  · cases h
  · cases h
  · cases h
    refine ⟨⟨_, _, _, hw.trans (State.nextAnswer_frame _)⟩, fun r hr => ?_⟩
    cases hr
    exact ⟨⟨Nat.clog 2 n, Nat.lt_succ_of_le (Nat.clog_le_of_le_pow hn), roundupPow2_eq_two_pow_clog n hn⟩,
      ⟨halign, hdisj⟩, hlim⟩

theorem State.allocSide_failed {u v : State} {n : Nat} {taken : List Region} (h : u.allocSide n taken = .failed v) :
    Answered u v := by
  obtain ⟨-, e⟩ | ⟨-, w, hw, e | e | ⟨_, e⟩ | ⟨_, _, _, e, -⟩⟩ := State.allocSide_cases u n taken <;> rw [e] at h
  · cases h
  · cases h
  · cases h
    exact ⟨_, _, _, hw.trans (State.nextAnswer_frame _)⟩
  · cases h
    rw [hw, State.nextAnswer_frame]
    exact ⟨_, _, _, rfl⟩
  · cases h

/-- Legal operands of `alloc_pipe` ask for at most `2^31` entries on either side (R111, D39). -/
theorem counts_le_of_allocOperandsOk {p : Port} (h : allocOperandsOk p = true) :
    (low32 p.x1).toNat ≤ 2 ^ 31 ∧ (low32 p.x3).toNat ≤ 2 ^ 31 := by
  simp only [allocOperandsOk, Bool.and_eq_true] at h
  obtain ⟨⟨⟨⟨⟨h1, -⟩, h3⟩, hn1⟩, hn3⟩, -⟩ := h
  rw [low32_toNat _ h1, low32_toNat _ h3]
  exact ⟨of_decide_eq_true hn1, of_decide_eq_true hn3⟩

theorem Changes.createPipe (h : Changes s t) {id : Nat} {src dst : Option NewRegion}
    (hphase : (t.pipe id).phase = .unallocated) (hdiag : t.isDiag id = true → attrInterruptDisabled t.cur.x4 = true)
    (hsrc : ∀ g ∈ src, g.Granted t.cfg t.regions)
    (hdst : ∀ g ∈ dst, g.Granted t.cfg ((src.map NewRegion.region).toList ++ t.regions)) :
    Changes s (t.createPipe id src dst) := by
  have hframe : ∃ m, (t.installRegion src).installRegion dst = { t with mem := m } := by
    cases src <;> cases dst <;> exact ⟨_, rfl⟩
  have hinstall := (h.installRegion src).installRegion dst
  unfold State.createPipe
  obtain ⟨m, e⟩ := hframe
  rw [e] at hinstall ⊢
  exact (hinstall.tail (.create id t.draws src dst hphase hdiag hsrc hdst)).tail
    (.bookkeeping t.allocs (t.draws + 5) t.inputs t.trace)

theorem execAllocPipe_changes {nl : Bool} {p : PipeField} (hport : s.port < s.nHosts)
    (h : execAllocPipe nl p s = .next t) : Changes s t := by
  obtain ⟨-, hlegal, -⟩ := State.locked_next _ _ _ _ _ _ h
  refine State.locked_changes hport h fun u hcur hb => ?_
  obtain ⟨hmax1, hmax3⟩ := counts_le_of_allocOperandsOk (hcur ▸ hlegal)
  split at hb
  · cases hb
  next hphase =>
  split at hb
  · cases hb
  next hdiag =>
  have hguard (hd : u.isDiag p.toNat = true) : attrInterruptDisabled u.cur.x4 = true := by simpa [hd] using hdiag
  split at hb
  · cases hb
  · next v e =>
    cases hb
    exact (Changes.answered .refl (State.allocSide_failed e)).finish nl .outOfMemory
  next v src e =>
  obtain ⟨hv, hsrc⟩ := State.allocSide_got hmax1 e
  have huv := Changes.answered .refl hv
  obtain ⟨as, d, tr, rfl⟩ := hv
  split at hb
  · cases hb
  · next w e' =>
    cases hb
    exact ((huv.answered (State.allocSide_failed e')).releaseNew src).finish nl .outOfMemory
  · next w dst e' =>
    cases hb
    obtain ⟨hw, hdst⟩ := State.allocSide_got hmax3 e'
    have huw := huv.answered hw
    obtain ⟨as', d', tr', rfl⟩ := hw
    exact (huw.createPipe (not_not.1 hphase) hguard hsrc hdst).finish nl .ok

theorem Changes.initSrcIf (h : Changes s t) (id : Nat) : Changes s (t.initSrcIf id) := by
  unfold State.initSrcIf
  split
  · exact h
  · next r hr =>
    have hset := (((h.zeroRing r.toRing).noteRead (.block id .srcRdIdx)).noteRead (.block id .srcWrIdx)).setSrc
      (r' := { r with sw := t.regRead (.block id .srcRdIdx) &&& r.mask, wr := t.regRead (.block id .srcWrIdx) &&& r.mask,
                      hw := t.regRead (.block id .srcRdIdx) &&& r.mask }) hr
      ⟨⟨rfl, rfl, .inr ⟨_, rfl⟩, .inr ⟨_, rfl⟩, .inl rfl⟩, .inr ⟨_, rfl⟩⟩
    exact (((hset.regWrite id .srcBase _ trivial).regWrite id .srcSize _ trivial).regWrite id .srcWmLow _
      trivial).regWrite id .srcWmHigh _ trivial

theorem Changes.initDstIf (h : Changes s t) (id : Nat) : Changes s (t.initDstIf id) := by
  unfold State.initDstIf
  split
  · exact h
  · next r hr =>
    have hset := (((h.zeroRing r).noteRead (.block id .dstRdIdx)).noteRead (.block id .dstWrIdx)).setDst
      (r' := { r with sw := t.regRead (.block id .dstRdIdx) &&& r.mask, wr := t.regRead (.block id .dstWrIdx) &&& r.mask })
      hr ⟨rfl, rfl, .inr ⟨_, rfl⟩, .inr ⟨_, rfl⟩, .inl rfl⟩
    exact (((hset.regWrite id .dstBase _ trivial).regWrite id .dstSize _ trivial).regWrite id .dstWmLow _
      trivial).regWrite id .dstWmHigh _ trivial

/-- Initialising the source half keeps every phase. -/
theorem State.initSrcIf_phase (u : State) (id j : Nat) : ((u.initSrcIf id).pipe j).phase = (u.pipe j).phase := by
  unfold State.initSrcIf
  split
  · rfl
  · simp [State.initSrc]

/-- Initialising the destination half keeps every phase. -/
theorem State.initDstIf_phase (u : State) (id j : Nat) : ((u.initDstIf id).pipe j).phase = (u.pipe j).phase := by
  unfold State.initDstIf
  split
  · rfl
  · simp [State.initDst]

theorem execInitPipe_changes {nl : Bool} {p : PipeField} (hport : s.port < s.nHosts)
    (h : execInitPipe nl p s = .next t) : Changes s t := by
  refine State.locked_changes hport h fun u _ hb => ?_
  split at hb
  · cases hb
  · next hphase =>
    split at hb
    · cases hb
      have hinit : Changes u ((u.initSrcIf p.toNat).initDstIf p.toNat) := (Changes.initSrcIf .refl _).initDstIf _
      refine Changes.finish (hinit.tail (.phase p.toNat .active ?_ (by decide))) nl .ok
      rwa [State.initDstIf_phase, State.initSrcIf_phase]
    · cases hb

theorem Changes.deinitSrcIf (h : Changes s t) (id : Nat) : Changes s (t.deinitSrcIf id) := by
  unfold State.deinitSrcIf
  split
  · exact (h.regWrite id .srcBase _ trivial).regWrite id .srcSize _ trivial
  · exact h

theorem Changes.deinitDstIf (h : Changes s t) (id : Nat) : Changes s (t.deinitDstIf id) := by
  unfold State.deinitDstIf
  split
  · exact (h.regWrite id .dstBase _ trivial).regWrite id .dstSize _ trivial
  · exact h

@[simp] theorem State.deinitSrcIf_pipe (u : State) (id j : Nat) : (u.deinitSrcIf id).pipe j = u.pipe j := by
  unfold State.deinitSrcIf
  split <;> simp

@[simp] theorem State.deinitDstIf_pipe (u : State) (id j : Nat) : (u.deinitDstIf id).pipe j = u.pipe j := by
  unfold State.deinitDstIf
  split <;> simp

theorem execDeinitPipe_changes {nl : Bool} {p : PipeField} (hport : s.port < s.nHosts)
    (h : execDeinitPipe nl p s = .next t) : Changes s t := by
  refine State.locked_changes hport h fun u _ hb => ?_
  split at hb
  · cases hb
  · next hphase =>
    cases hb
    have hdeinit : Changes u ((u.deinitSrcIf p.toNat).deinitDstIf p.toNat) := (Changes.deinitSrcIf .refl _).deinitDstIf _
    refine Changes.finish (hdeinit.tail (.phase p.toNat .allocated ?_ (by decide))) nl .ok
    simp [not_not.1 hphase]

@[simp] theorem State.releaseRing_pipe (u : State) (ring : Option Ring) (j : Nat) :
    (u.releaseRing ring).pipe j = u.pipe j := by
  cases ring <;> rfl

theorem execFreePipe_changes {nl : Bool} {p : PipeField} (hport : s.port < s.nHosts)
    (h : execFreePipe nl p s = .next t) : Changes s t := by
  refine State.locked_changes hport h fun u _ hb => ?_
  dsimp only at hb
  split at hb
  · cases hb
  · next hphase =>
    cases hb
    have hrel : Changes u ((u.releaseRing ((u.pipe p.toNat).src.map SrcRing.toRing)).releaseRing (u.pipe p.toNat).dst) :=
      (Changes.releaseRing .refl _).releaseRing _
    have hfree := hrel.tail (.free p.toNat (by simpa using hphase))
    simp only [State.releaseRing_pipe] at hfree
    exact Changes.finish hfree nl .ok

/-! ### The lock (R206, R208) -/

theorem execLock_changes (hport : s.port < s.nHosts) (h : execLock s = .next t) : Changes s t := by
  unfold execLock at h
  split at h
  · cases h
  · split at h
    · cases h
      exact Changes.returnStatus (.single (.acquire hport)) .ok
    · cases h
      exact Changes.park .refl .lock

theorem execUnlock_changes (h : execUnlock s = .next t) : Changes s t := by
  unfold execUnlock at h
  split at h
  · cases h
    exact Changes.returnStatus (.single .release) .ok
  · cases h

/-! ### Interrupt service and enables (R180 to R187) -/

theorem Changes.phaseA (h : Changes s t) (id : Nat) (enclosed : Bool) (rem : U32) :
    Changes s (t.phaseA id enclosed rem) := by
  unfold State.phaseA
  split
  · exact (h.regWrite id .intStatus _ (.inl rfl)).setSvc _
  · exact h.setSvc _

theorem Changes.serviceDone (h : Changes s t) : Changes s t.serviceDone := (h.setSvc none).returnStatus .ok

theorem Changes.phaseC (h : Changes s t) (id : Nat) (enclosed : Bool) (rem : U32) :
    Changes s (t.phaseC id enclosed rem) := by
  have hclear := h.regWrite id .intStatus t.cfg.wmMask (.inr rfl)
  cases enclosed with
  | true => exact hclear.setSvc _
  | false => exact hclear.serviceDone

theorem execServicePipe_changes {p : PipeField} (h : execServicePipe p s = .next t) : Changes s t := by
  unfold execServicePipe at h
  split at h
  · obtain ⟨-, -, h⟩ := State.serviceEntry_next _ _ _ h
    cases h
    exact Changes.phaseA .refl _ _ _
  · cases h

theorem execServiceAnyPending_changes (h : execServiceAnyPending s = .next t) : Changes s t := by
  obtain ⟨-, -, h⟩ := State.serviceEntry_next _ _ _ h
  cases h
  exact (Changes.noteRead .refl _).setSvc _

theorem execEnableInterrupts_changes {nl : Bool} (hport : s.port < s.nHosts)
    (h : execEnableInterrupts nl s = .next t) : Changes s t := by
  refine State.locked_changes hport h fun u _ hb => ?_
  cases hb
  refine (Changes.writeEnables .refl _ _ _ fun j => ?_).finish nl .ok
  unfold State.enableValue
  split
  · exact .inl rfl
  · exact .inr rfl

theorem execDisableInterrupts_changes {nl : Bool} (hport : s.port < s.nHosts)
    (h : execDisableInterrupts nl s = .next t) : Changes s t := by
  refine State.locked_changes hport h fun u _ hb => ?_
  cases hb
  exact (Changes.writeEnables .refl _ _ _ fun _ => .inr rfl).finish nl .ok

/-- One stage of a service operation (R180, R183). -/
theorem State.serviceStage_changes {v : Svc} (h : s.serviceStage v = .next t) : Changes s t := by
  obtain ⟨stage, enclosed, rem⟩ := v
  cases stage with
  | scan =>
    dsimp only [State.serviceStage] at h
    split at h
    · cases h
      exact Changes.serviceDone .refl
    · cases h
      exact Changes.phaseA .refl _ _ _
  | phaseA id =>
    dsimp only [State.serviceStage] at h
    split at h
    · cases h
    · cases h
      exact Changes.phaseA .refl _ _ _
  | beforeRecv id =>
    dsimp only [State.serviceStage] at h
    split at h
    · cases h
      exact (Changes.emit .refl _).setSvc _
    · cases h
      exact Changes.setSvc .refl _
  | inRecv id =>
    cases h
    exact .refl
  | beforeSend id =>
    dsimp only [State.serviceStage] at h
    split at h
    · cases h
      exact (Changes.emit .refl _).setSvc _
    · cases h
      exact Changes.setSvc .refl _
  | inSend id =>
    cases h
    exact .refl
  | phaseC id =>
    dsimp only [State.serviceStage] at h
    split at h
    · cases h
    · split at h
      · cases h
        exact Changes.phaseC .refl _ _ _
      · cases h
        exact .refl

/-- The return of a callback moves the stage on, or nothing (R181). -/
theorem State.callbackDone_changes {v : Svc} (h : s.callbackDone v = .next t) : Changes s t := by
  unfold State.callbackDone at h
  split at h
  · split at h
    · cases h
    · cases h
      exact Changes.setSvc .refl _
  · split at h
    · cases h
    · cases h
      exact Changes.setSvc .refl _
  · cases h
    exact .refl

/-! ### Every operation -/

/-- Every next state of an operation at an existing port is reached by elementary changes. -/
theorem exec_changes {i : Instr} (hport : s.port < s.nHosts) (h : exec i s = .next t) : Changes s t := by
  cases i with
  | lock => exact execLock_changes hport h
  | unlock => exact execUnlock_changes h
  | send => exact execSend_changes hport h
  | revertLastGather => exact execRevertLastGather_changes hport h
  | completedSendNext => exact execCompletedSendNext_changes hport h
  | cancelSendNext => exact execCancelSendNext_changes hport h
  | availableSendSlots => exact execAvailableSendSlots_changes hport h
  | rxPostBuf => exact execRxPostBuf_changes hport h
  | rxUpdateWriteIdx => exact execRxUpdateWriteIdx_changes hport h
  | completedRecvNext => exact execCompletedRecvNext_changes hport h
  | revokeRecvNext => exact execRevokeRecvNext_changes hport h
  | availableRecvSlots => exact execAvailableRecvSlots_changes hport h
  | allocPipe => exact execAllocPipe_changes hport h
  | initPipe => exact execInitPipe_changes hport h
  | deinitPipe => exact execDeinitPipe_changes hport h
  | freePipe => exact execFreePipe_changes hport h
  | servicePipe => exact execServicePipe_changes h
  | serviceAnyPending => exact execServiceAnyPending_changes h
  | enableInterrupts => exact execEnableInterrupts_changes hport h
  | disableInterrupts => exact execDisableInterrupts_changes hport h

end

end Sys2Proof.Machine
end

section
/-! Every next state of every move, and so of every step, is reached by elementary changes. -/

namespace Sys2Proof.Machine

section
variable {s t : State}

/-! ### The device (R217 to R222) -/

theorem Changes.deviceWrite (h : Changes s t) (id : Nat) (f : CtrlBlock → CtrlBlock) (g : DeviceState → DeviceState)
    (hf : DeviceMayApply f) : Changes s (t.deviceWrite id f g) := h.tail (.device id f g hf)

/-- A device move that leaves the two interrupt registers alone. -/
theorem DeviceMayApply.of_eq {f : CtrlBlock → CtrlBlock} (henable : ∀ cb, (f cb).intEnable = cb.intEnable)
    (hstatus : ∀ cb, (f cb).intStatus = cb.intStatus) : DeviceMayApply f :=
  fun cb => ⟨henable cb, 0#32, by simp [hstatus]⟩

/-- A device move that raises status bits. -/
theorem DeviceMayApply.raise (m : U32) : DeviceMayApply fun c => { c with intStatus := c.intStatus ||| m } :=
  fun _ => ⟨rfl, m, rfl⟩

theorem devSrcComplete_changes {id : Nat} (h : devSrcComplete id s = .next t) : Changes s t := by
  unfold devSrcComplete at h
  split at h
  · dsimp only at h
    split at h
    · cases h
      exact (Changes.emit .refl _).deviceWrite id _ _ (.of_eq (fun _ => rfl) fun _ => rfl)
    · cases h
  · cases h
    exact .refl

theorem devDstWriteLen_changes {id : Nat} {len upper : U16} {flags : Option U32}
    (h : devDstWriteLen id len upper flags s = .next t) : Changes s t := by
  unfold devDstWriteLen at h
  split at h
  · dsimp only at h
    split at h
    · cases h
      exact ((Changes.emit .refl _).deviceFill _ _ _ _ _).deviceWrite id _ _ (.of_eq (fun _ => rfl) fun _ => rfl)
    · cases h
  · cases h
    exact .refl

theorem devDstAdvance_changes {id : Nat} (h : devDstAdvance id s = .next t) : Changes s t := by
  unfold devDstAdvance at h
  split at h
  · cases h
    exact Changes.deviceWrite .refl id _ _ (.of_eq (fun _ => rfl) fun _ => rfl)
  · cases h
    exact .refl

theorem devRaiseCc_changes {id : Nat} (h : devRaiseCc id s = .next t) : Changes s t := by
  unfold devRaiseCc at h
  split at h
  · cases h
    exact Changes.deviceWrite .refl id _ _ (.raise s.cfg.ccMask)
  · cases h
    exact .refl

theorem devRaiseOther_changes {id : Nat} {m : U32} (h : devRaiseOther id m s = .next t) : Changes s t := by
  unfold devRaiseOther at h
  split at h
  · cases h
    exact Changes.deviceWrite .refl id _ _ (.raise m)
  · cases h
    exact .refl

/-! ### Software and the ports (R104, R181, R207, R270) -/

theorem acceptCommand_changes {h : Nat} {w : U32} (hn : acceptCommand h w s = .next t) : Changes s t := by
  unfold acceptCommand at hn
  split at hn
  · next hacc =>
    obtain ⟨i, -, hexec⟩ := runWord_next w _ t hn
    exact .head (.turn h) (exec_changes hacc.1 hexec)
  · cases hn
    exact .refl

theorem writeOperand_changes {h : Nat} {i : Fin 5} {v : Nat} (hn : writeOperand h i v s = .next t) : Changes s t := by
  unfold writeOperand at hn
  split at hn
  · cases hn
    exact .single (.operand h i _ fun _ => s.inWidth_lt v)
  · cases hn
    exact .refl

/-- A port goes on: its waiting operation tries again, or its service operation takes a stage (R207). -/
theorem goOn_changes (hport : s.port < s.nHosts) (hn : goOn s = .next t) : Changes s t := by
  obtain ⟨i, -, hexec⟩ | ⟨-, v, -, hstage⟩ | ⟨-, -, rfl⟩ := goOn_next s t hn
  · exact (Changes.setWaiting .refl none).trans (exec_changes (by simpa using hport) hexec)
  · exact State.serviceStage_changes hstage
  · exact .refl

theorem advancePort_changes {h : Nat} (hn : advancePort h s = .next t) : Changes s t := by
  unfold advancePort at hn
  split at hn
  · next hlt => exact .head (.turn h) (goOn_changes hlt hn)
  · cases hn
    exact .refl

theorem returnCallback_changes {h : Nat} (hn : returnCallback h s = .next t) : Changes s t := by
  unfold returnCallback at hn
  split at hn
  · split at hn
    · exact .head (.turn h) (State.callbackDone_changes hn)
    · cases hn
      exact .refl
  · cases hn
    exact .refl

theorem hostStore_changes {a : Nat} {v : U32} (hn : hostStore a v s = .next t) : Changes s t := by
  unfold hostStore at hn
  split at hn
  · cases hn
    exact .single (.store a v)
  · cases hn
    exact .refl

/-! ### Every move and every step -/

theorem perform_changes {a : Input} (h : perform a s = .next t) : Changes s t := by
  cases a with
  | writeX => exact writeOperand_changes h
  | command => exact acceptCommand_changes h
  | advance => exact advancePort_changes h
  | callbackReturn => exact returnCallback_changes h
  | hostStore => exact hostStore_changes h
  | devSrcComplete => exact devSrcComplete_changes h
  | devDstWriteLen => exact devDstWriteLen_changes h
  | devDstAdvance => exact devDstAdvance_changes h
  | devRaiseCc => exact devRaiseCc_changes h
  | devRaiseOther => exact devRaiseOther_changes h
  | envDeviceDies =>
    cases h
    exact .single .death

/-- Every next state of a step is reached by elementary changes. -/
theorem step_changes (h : step s = .next t) : Changes s t := by
  obtain ⟨-, rfl⟩ | ⟨a, rest, -, hp⟩ := step_next s t h
  · exact .refl
  · exact .head (.bookkeeping s.allocs s.draws rest s.trace) (perform_changes hp)

end

end Sys2Proof.Machine
end

section
/-! The invariants of every step: canonical memory, sound rings, register widths, interrupt enables, error status. -/

namespace Sys2Proof.Machine

section
variable {s t : State}

/-! ### Memory (R51, log 8) -/

theorem Change.memory_wf (h : Change s t) (hs : Memory.wf s.mem) : Memory.wf t.mem := by
  cases h with
  | store a v => exact Memory.write4_wf _ a v hs
  | zero a n => exact Memory.zero_wf _ a n hs
  | install a n contents => exact Memory.install_wf _ a n contents hs
  | _ => exact hs

/-- Settles O53: memory changes by 4-byte stores, zeroed ranges and installed regions alone. -/
theorem stepKeepsMemoryCanonical : Obligations.StepKeepsMemoryCanonical :=
  fun _ _ hs h => (step_changes h).keeps (P := fun u => Memory.wf u.mem) (fun _ _ => Change.memory_wf) hs

/-! ### The configuration and the sizes of the tables (R9) -/

theorem Change.cfg (h : Change s t) : t.cfg = s.cfg := by
  cases h <;> rfl

theorem Change.nPipes (h : Change s t) : t.nPipes = s.nPipes := by
  cases h with
  | register id f v _ => exact s.regWrite_nPipes _ v
  | device id f g _ => exact s.deviceWrite_nPipes id f g
  | srcRing id r r' _ _ => exact s.setSrc_nPipes id r'
  | dstRing id r r' _ _ => exact s.setDst_nPipes id r'
  | phase id ph _ _ => exact s.setPhase_nPipes id ph
  | create | free => exact s.setPipe_nPipes _ _
  | _ => rfl

theorem Change.nHosts (h : Change s t) : t.nHosts = s.nHosts := by
  cases h with
  | progress | operand => exact List.length_set
  | _ => rfl

/-! ### Rings (R27, R28, R41, R77) -/

/-- A value cut by the mask of a ring that has slots is an index of the ring. -/
theorem and_mask_lt (cap v : U32) (h : 0 < cap.toNat) : (v &&& (cap - 1#32)).toNat < cap.toNat := by
  have hmask : (cap - 1#32).toNat = cap.toNat - 1 := by bv_omega
  have hand : (v &&& (cap - 1#32)).toNat ≤ (cap - 1#32).toNat := by
    rw [BitVec.toNat_and]
    exact Nat.and_le_right
  omega

theorem IndexUpdated.lt {cap i i' : U32} (h : IndexUpdated (cap - 1#32) i i') (hi : i.toNat < cap.toNat) :
    i'.toNat < cap.toNat := by
  obtain rfl | ⟨v, rfl⟩ := h
  · exact hi
  · exact and_mask_lt cap v (Nat.zero_lt_of_lt hi)

/-- An update keeps a ring sound (R28). -/
theorem Ring.Updated.ok {c : Config} {x1 : Nat} {r r' : Ring} (h : r.Updated x1 r') (hr : r.ok c) : r'.ok c := by
  obtain ⟨hcap, hsw, hwr, halign, hrange, hsorted, hkeys⟩ := hr
  have hctx : sparseSorted r'.ctx ∧ ∀ e ∈ r'.ctx, e.1 < r.cap.toNat := by
    obtain e | ⟨i, e⟩ | e := h.ctx <;> rw [e]
    · exact ⟨hsorted, hkeys⟩
    · exact ⟨sparseErase_sorted _ i hsorted, fun e he => hkeys e (List.mem_filter.1 he).1⟩
    · refine ⟨sparseSet_sorted _ _ _ hsorted, fun e he => ?_⟩
      obtain rfl | he := mem_sparseSet _ _ _ e he
      · exact hwr
      · exact hkeys e he
  have hbytes : r'.bytes = r.bytes := congrArg (fun k : U32 => k.toNat * descSize) h.cap
  unfold Ring.ok
  rw [h.cap, h.base, hbytes]
  exact ⟨hcap, h.sw.lt hsw, h.wr.lt hwr, halign, hrange, hctx⟩

theorem SrcRing.Updated.ok {c : Config} {x1 : Nat} {r r' : SrcRing} (h : r.Updated x1 r') (hr : r.ok c) : r'.ok c := by
  refine ⟨h.ring.ok hr.1, ?_⟩
  rw [h.ring.cap]
  exact h.hw.lt hr.2

/-- A legal capacity as a 32-bit word. -/
theorem NewRegion.Granted.toNat_cap {c : Config} {taken : List Region} {g : NewRegion} (h : g.Granted c taken) :
    (BitVec.ofNat 32 g.cap).toNat = g.cap := by
  obtain ⟨k, hk, e⟩ := h.cap
  rw [BitVec.toNat_ofNat, e]
  exact Nat.mod_eq_of_lt (Nat.pow_lt_pow_right (by decide) hk)

theorem NewRegion.Granted.cap_pos {c : Config} {taken : List Region} {g : NewRegion} (h : g.Granted c taken) :
    0 < (BitVec.ofNat 32 g.cap).toNat := by
  obtain ⟨k, -, e⟩ := h.cap
  rw [h.toNat_cap, e]
  exact Nat.two_pow_pos k

/-- A fresh ring in a granted region is sound (R190, R191, log 9). -/
theorem freshRing_ok {c : Config} {taken : List Region} {g : NewRegion} (h : g.Granted c taken) (d : Nat) :
    (freshRing g d).ok c := by
  have hbytes : (freshRing g d).bytes = g.bytes := congrArg (· * descSize) h.toNat_cap
  refine ⟨?_, and_mask_lt _ _ h.cap_pos, and_mask_lt _ _ h.cap_pos, h.contract.1, ?_, .nil, by simp [freshRing]⟩
  · obtain ⟨k, hk, e⟩ := h.cap
    exact ⟨k, hk, h.toNat_cap.trans e⟩
  · rw [hbytes]
    exact h.inRange

theorem freshSrcRing_ok {c : Config} {taken : List Region} {g : NewRegion} (h : g.Granted c taken) (d : Nat) :
    (freshSrcRing g d).ok c :=
  ⟨freshRing_ok h d, and_mask_lt _ _ h.cap_pos⟩

/-! ### Pipes (R31) -/

/-- `PipesOk` read through the accessor of the table. -/
theorem pipesOk_iff (s : State) : PipesOk s ↔ ∀ id, (s.pipe id).ok s.cfg :=
  s.forall_entry_iff (Q := fun e => e.pipe.ok s.cfg) (by simp [Pipe.ok, PipeEntry.reset, Pipe.reset])

theorem PipesOk.setPipe (hs : PipesOk s) (id : Nat) {p : Pipe} (hp : p.ok s.cfg) : PipesOk (s.setPipe id p) := by
  rw [pipesOk_iff] at hs ⊢
  intro j
  rw [State.setPipe_pipe]
  split
  · exact hp
  · exact hs j

theorem Change.pipesOk (h : Change s t) (hs : PipesOk s) : PipesOk t := by
  have hold := (pipesOk_iff s).1 hs
  cases h with
  | register id f v _ =>
    rw [pipesOk_iff]
    simpa using hold
  | device id f g _ =>
    rw [pipesOk_iff]
    simpa using hold
  | srcRing id r r' hr hu =>
    obtain ⟨hsrc, hdst, hphase⟩ := hold id
    refine hs.setPipe id ⟨fun q hq => ?_, hdst, fun hun => ?_⟩
    · cases hq
      exact hu.ok (hsrc r hr)
    · exact absurd (hphase hun).1 (by simp [hr])
  | dstRing id r r' hr hu =>
    obtain ⟨hsrc, hdst, hphase⟩ := hold id
    refine hs.setPipe id ⟨hsrc, fun q hq => ?_, fun hun => ?_⟩
    · cases hq
      exact hu.ok (hdst r hr)
    · exact absurd (hphase hun).2 (by simp [hr])
  | phase id ph _ hnew =>
    obtain ⟨hsrc, hdst, -⟩ := hold id
    exact hs.setPipe id ⟨hsrc, hdst, fun hun => absurd hun hnew⟩
  | create id d src dst _ _ hsrc hdst =>
    refine hs.setPipe id ⟨fun r hr => ?_, fun r hr => ?_, fun hun => nomatch hun⟩
    · obtain ⟨g, hg, rfl⟩ := Option.map_eq_some_iff.1 hr
      exact freshSrcRing_ok (hsrc g hg) _
    · obtain ⟨g, hg, rfl⟩ := Option.map_eq_some_iff.1 hr
      exact freshRing_ok (hdst g hg) _
  | free id _ => exact hs.setPipe id ⟨nofun, nofun, fun _ => ⟨rfl, rfl⟩⟩
  | _ => exact hs

/-! ### Widths (R9, R21) -/

/-- A ring update brings in no context but `x1`. -/
theorem Ring.Updated.contexts {x1 n : Nat} {r r' : Ring} (h : r.Updated x1 r') (hx : x1 < n)
    (hr : ∀ c ∈ r.ctx, c.2 < n) : ∀ c ∈ r'.ctx, c.2 < n := by
  obtain e | ⟨i, e⟩ | e := h.ctx <;> rw [e]
  · exact hr
  · exact fun c hc => hr c (List.mem_filter.1 hc).1
  · intro c hc
    obtain rfl | hc := mem_sparseSet _ _ _ c hc
    · exact hx
    · exact hr c hc

theorem Port.fits_put {n v : Nat} {p : Port} (i : Fin 5) (hp : p.fits n) (hv : v < n) : (p.put i v).fits n := by
  obtain ⟨h0, h1, h2, h3, h4⟩ := hp
  fin_cases i
  · exact ⟨hv, h1, h2, h3, h4⟩
  · exact ⟨h0, hv, h2, h3, h4⟩
  · exact ⟨h0, h1, hv, h3, h4⟩
  · exact ⟨h0, h1, h2, hv, h4⟩
  · exact ⟨h0, h1, h2, h3, hv⟩

theorem WidthOk.setPort (hs : WidthOk s) (h : Nat) {p : Port} (hp : p.fits (2 ^ s.cfg.ctxW)) :
    WidthOk { s with ports := s.ports.set h p } := by
  obtain ⟨hw, hports, hpipes⟩ := (widthOk_iff s).1 hs
  refine (widthOk_iff _).2 ⟨hw, fun k => ?_, hpipes⟩
  rw [State.portAt_set]
  split
  · exact hp
  · exact hports k

theorem WidthOk.setPipe (hs : WidthOk s) (id : Nat) {p : Pipe} (hp : p.contextsBelow (2 ^ s.cfg.ctxW)) :
    WidthOk (s.setPipe id p) := by
  obtain ⟨hw, hports, hpipes⟩ := (widthOk_iff s).1 hs
  refine (widthOk_iff _).2 ⟨hw, hports, fun j => ?_⟩
  rw [State.setPipe_pipe]
  split
  · exact hp
  · exact hpipes j

theorem Change.widthOk (h : Change s t) (hs : WidthOk s) : WidthOk t := by
  obtain ⟨hw, hports, hpipes⟩ := (widthOk_iff s).1 hs
  have hx1 : s.cur.x1 < 2 ^ s.cfg.ctxW := (hports s.port).2.1
  cases h with
  | progress h w v => exact hs.setPort h (hports h)
  | operand h i v hv => exact hs.setPort h (Port.fits_put i (hports h) (hv hs))
  | register id f v _ => exact (widthOk_iff _).2 ⟨hw, hports, by simpa using hpipes⟩
  | device id f g _ => exact (widthOk_iff _).2 ⟨hw, hports, by simpa using hpipes⟩
  | srcRing id r r' hr hu =>
    refine hs.setPipe id ⟨fun q hq => ?_, (hpipes id).2⟩
    cases hq
    exact hu.ring.contexts hx1 ((hpipes id).1 r hr)
  | dstRing id r r' hr hu =>
    refine hs.setPipe id ⟨(hpipes id).1, fun q hq => ?_⟩
    cases hq
    exact hu.contexts hx1 ((hpipes id).2 r hr)
  | phase id ph _ _ => exact hs.setPipe id (hpipes id)
  | create id d src dst _ _ _ _ =>
    refine hs.setPipe id ⟨fun r hr => ?_, fun r hr => ?_⟩
    · obtain ⟨g, -, rfl⟩ := Option.map_eq_some_iff.1 hr
      exact nofun
    · obtain ⟨g, -, rfl⟩ := Option.map_eq_some_iff.1 hr
      exact nofun
  | free id _ => exact hs.setPipe id ⟨nofun, nofun⟩
  | _ => exact hs

/-- Settles O54: every elementary change keeps rings sound, and keeps registers and contexts within `CTX_W` bits. -/
theorem stepKeepsPipesSound : Obligations.StepKeepsPipesSound :=
  fun _ _ h => ⟨(step_changes h).keeps fun _ _ => Change.pipesOk, (step_changes h).keeps fun _ _ => Change.widthOk⟩

/-! ### Interrupt enables (R44, R186, R187) -/

/-- A table whose entries change in `pipe` alone has the control blocks it had. -/
theorem State.setPipe_cb (s : State) (id j : Nat) (p : Pipe) : ((s.setPipe id p).entry j).cb = (s.entry j).cb := by
  rw [State.setPipe_entry]
  split
  · next h => rw [h.1]
  · rfl

/-- What an elementary change does to a control block: nothing, a write the block may do, or a device's move. -/
theorem Change.cb (h : Change s t) (id : Nat) :
    (t.entry id).cb = (s.entry id).cb ∨
    (∃ f v, HostMayWrite s.cfg v f ∧ (t.entry id).cb = (s.entry id).cb.put v f) ∨
    ∃ f, DeviceMayApply f ∧ (t.entry id).cb = f (s.entry id).cb := by
  cases h with
  | register j f v hv =>
    rw [State.regWrite_entry]
    split
    · next h => exact .inr (.inl ⟨f, v, hv, by rw [h.1]; rfl⟩)
    · exact .inl rfl
  | device j f g hf =>
    rw [State.deviceWrite_entry]
    split
    · next h => exact .inr (.inr ⟨f, hf, by rw [h.1]⟩)
    · exact .inl rfl
  | srcRing | dstRing | phase | create | free => exact .inl (State.setPipe_cb _ _ _ _)
  | _ => exact .inl rfl

theorem CtrlBlock.intEnable_put {c : Config} {v : U32} {f : RegField} (cb : CtrlBlock) (h : HostMayWrite c v f) :
    (cb.put v f).intEnable = cb.intEnable ∨ (cb.put v f).intEnable = c.ccMask ∨ (cb.put v f).intEnable = 0#32 := by
  cases f with
  | intEnable => exact .inr h
  | _ => exact .inl rfl

/-- `INT_ENABLE` of pipe `id` is in `t` what it was in `s`, or the copy-complete group, or nothing. -/
def EnableKept (id : Nat) (s t : State) : Prop :=
  (t.entry id).cb.intEnable = (s.entry id).cb.intEnable ∨ (t.entry id).cb.intEnable = s.cfg.ccMask ∨
    (t.entry id).cb.intEnable = 0#32

theorem EnableKept.trans {id : Nat} {u : State} (hst : EnableKept id s t) (htu : EnableKept id t u)
    (hcfg : t.cfg = s.cfg) : EnableKept id s u := by
  obtain e | e | e := htu
  · unfold EnableKept
    rwa [e]
  · exact .inr (.inl (e.trans (congrArg Config.ccMask hcfg)))
  · exact .inr (.inr e)

theorem Change.enableKept (h : Change s t) (id : Nat) : EnableKept id s t := by
  unfold EnableKept
  obtain e | ⟨f, v, hv, e⟩ | ⟨f, hf, e⟩ := h.cb id <;> rw [e]
  · exact .inl rfl
  · exact CtrlBlock.intEnable_put _ hv
  · exact .inl (hf _).1

theorem Changes.cfg (h : Changes s t) : t.cfg = s.cfg :=
  h.keeps (P := fun u => u.cfg = s.cfg) (fun _ _ hc hu => hc.cfg.trans hu) rfl

theorem Changes.enableKept (h : Changes s t) (id : Nat) : EnableKept id s t := by
  induction h with
  | refl => exact .inl rfl
  | tail hu hc ih => exact ih.trans (hc.enableKept id) (Changes.cfg hu)

/-- Settles O59: the block writes `INT_ENABLE` with `CC_MASK` or 0, the device never. -/
theorem onlyCopyCompleteIsEverEnabled : Obligations.OnlyCopyCompleteIsEverEnabled :=
  fun _ _ id h => (step_changes h).enableKept id

/-! ### Error status and death (R45, R46, R223) -/

theorem Change.devAlive (h : Change s t) (hs : s.devAlive = false) : t.devAlive = false := by
  cases h with
  | death => rfl
  | _ => exact hs

/-- Every bit of `m` that is set in `a` is set in `b`. -/
def BitsKept (m a b : U32) : Prop := ∀ i : Nat, a.getLsbD i = true → m.getLsbD i = true → b.getLsbD i = true

theorem BitsKept.trans {m a b c : U32} (hab : BitsKept m a b) (hbc : BitsKept m b c) : BitsKept m a c :=
  fun i ha hm => hbc i (hab i ha hm) hm

theorem BitsKept.and_not_eq_zero {m a b : U32} (h : BitsKept m a b) : a &&& m &&& ~~~b = 0#32 := by
  apply BitVec.eq_of_getLsbD_eq
  intro i hi
  simp only [BitVec.getLsbD_and, BitVec.getLsbD_not, BitVec.getLsbD_zero, hi, decide_true, Bool.true_and,
    Bool.and_eq_false_imp, Bool.and_eq_true, Bool.not_eq_false']
  exact fun hset => h i hset.1 hset.2

/-- Write-one-to-clear with a group disjoint from `m` clears no bit of `m` (R45). -/
theorem BitsKept.clearBits {m v : U32} (a : U32) (hdisj : v &&& m = 0#32) : BitsKept m a (clearBits a v) := by
  intro i ha hm
  have hv : v.getLsbD i = false := by simpa [hm] using congrArg (BitVec.getLsbD · i) hdisj
  rw [Machine.clearBits, BitVec.getLsbD_and, BitVec.getLsbD_not, ha, hv]
  simp [BitVec.lt_of_getLsbD ha]

theorem CtrlBlock.intStatus_put {c : Config} {v : U32} {f : RegField} (cb : CtrlBlock) (h : HostMayWrite c v f)
    (hcc : c.ccMask &&& c.errMask = 0#32) (hwm : c.wmMask &&& c.errMask = 0#32) :
    BitsKept c.errMask cb.intStatus (cb.put v f).intStatus := by
  cases f with
  | intStatus =>
    obtain rfl | rfl := h
    · exact BitsKept.clearBits _ hcc
    · exact BitsKept.clearBits _ hwm
  | _ => exact fun _ hset _ => hset

theorem Change.errorStatus (h : Change s t) (hcc : s.cfg.ccMask &&& s.cfg.errMask = 0#32)
    (hwm : s.cfg.wmMask &&& s.cfg.errMask = 0#32) (id : Nat) :
    BitsKept s.cfg.errMask (s.entry id).cb.intStatus (t.entry id).cb.intStatus := by
  obtain e | ⟨f, v, hv, e⟩ | ⟨f, hf, e⟩ := h.cb id <;> rw [e]
  · exact fun _ hset _ => hset
  · exact CtrlBlock.intStatus_put _ hv hcc hwm
  · obtain ⟨-, m, e⟩ := hf (s.entry id).cb
    rw [e]
    exact fun i hset _ => by simp [hset]

/-- What the elementary changes never undo: the configuration, the table sizes, the death of the device, and, where the
other groups are disjoint from the error group, the error status. -/
structure NotUndone (s t : State) : Prop where
  cfg : t.cfg = s.cfg
  nPipes : t.nPipes = s.nPipes
  nHosts : t.nHosts = s.nHosts
  dead : s.devAlive = false → t.devAlive = false
  errors : s.cfg.ccMask &&& s.cfg.errMask = 0#32 → s.cfg.wmMask &&& s.cfg.errMask = 0#32 →
    ∀ id, BitsKept s.cfg.errMask (s.entry id).cb.intStatus (t.entry id).cb.intStatus

theorem NotUndone.refl (s : State) : NotUndone s s := ⟨rfl, rfl, rfl, fun h => h, fun _ _ _ _ hset _ => hset⟩

theorem NotUndone.step {u v : State} (h : NotUndone s u) (hc : Change u v) : NotUndone s v where
  cfg := hc.cfg.trans h.cfg
  nPipes := hc.nPipes.trans h.nPipes
  nHosts := hc.nHosts.trans h.nHosts
  dead hs := hc.devAlive (h.dead hs)
  errors hcc hwm id := (h.errors hcc hwm id).trans <| by
    have he := hc.errorStatus (by rwa [h.cfg]) (by rwa [h.cfg]) id
    rwa [h.cfg] at he

/-- Settles O60: no elementary change undoes any of it. -/
theorem errorStatusAndDeathAreNeverUndone : Obligations.ErrorStatusAndDeathAreNeverUndone := by
  intro s t h
  obtain ⟨hcfg, hpipes, hhosts, hdead, herrors⟩ :=
    (step_changes h).keeps (P := NotUndone s) (fun _ _ hc hu => hu.step hc) (NotUndone.refl s)
  exact ⟨hcfg, hpipes, hhosts, hdead, fun hcc hwm id => (herrors hcc hwm id).and_not_eq_zero⟩

end

end Sys2Proof.Machine
end

section
/-! The interrupt summary, the writes of a port, and the reset state. -/

namespace Sys2Proof.Machine

/-! ### `INT_SUMMARY` and `irq` (R47, R48) -/

/-- Bit `j` of the summary from pipe `i` up is pipe `j`'s request; a pipe beyond the table requests nothing. -/
theorem getLsbD_summaryFrom (l : List PipeEntry) (i j : Nat) (hj : j < 32) :
    (summaryFrom i l).getLsbD j = (decide (i ≤ j) && (l.getD (j - i) PipeEntry.reset).cb.requests) := by
  have hreset : PipeEntry.reset.cb.requests = false := by decide
  induction l generalizing i with
  | nil => simp [summaryFrom, hreset]
  | cons e rest ih =>
    have hfirst : (if e.cb.requests then 1#32 <<< i else 0#32).getLsbD j = (decide (j = i) && e.cb.requests) := by
      cases e.cb.requests with
      | false => simp
      | true =>
        have hi : 1#32 <<< i = BitVec.twoPow 32 i := (BitVec.twoPow_eq 32 i).symm
        by_cases h : j = i
        · subst h
          simp [hi, hj]
        · simp [hi, h, Ne.symm h, BitVec.getLsbD_twoPow]
    rw [summaryFrom, BitVec.getLsbD_or, hfirst, ih]
    obtain hlt | rfl | hgt := lt_trichotomy j i
    · simp [hlt.ne, hlt.not_ge, show ¬i + 1 ≤ j by omega]
    · simp
    · obtain ⟨k, rfl⟩ := Nat.exists_eq_add_of_lt hgt
      simp [show i + k + 1 - i = k + 1 by omega, show i + k + 1 - (i + 1) = k by omega, show i + 1 ≤ i + k + 1 by omega,
        show i + k + 1 ≠ i by omega, show i ≤ i + k + 1 by omega]

theorem State.getLsbD_intSummary (s : State) (i : Nat) (hi : i < 32) :
    s.intSummary.getLsbD i = (s.entry i).cb.requests := by
  simp [State.intSummary, getLsbD_summaryFrom _ _ _ hi, State.entry]

/-- A pipe beyond the table requests no interrupt. -/
theorem State.requests_of_nPipes_le (s : State) (i : Nat) (hi : s.nPipes ≤ i) : (s.entry i).cb.requests = false := by
  have : s.pipes[i]? = none := List.getElem?_eq_none hi
  rw [State.entry, List.getD_eq_getElem?_getD, this]
  decide

theorem State.getLsbD_intSummary_of_nPipes_le (s : State) (i : Nat) (hi : s.nPipes ≤ i) :
    s.intSummary.getLsbD i = false := by
  obtain hlt | hge := lt_or_ge i 32
  · rw [s.getLsbD_intSummary i hlt, s.requests_of_nPipes_le i hi]
  · exact BitVec.getLsbD_of_ge _ _ hge

theorem CtrlBlock.requests_iff (cb : CtrlBlock) : cb.requests = true ↔ cb.intStatus &&& cb.intEnable ≠ 0#32 := by
  simp [CtrlBlock.requests]

theorem State.irq_iff (s : State) : s.irq = true ↔ s.intSummary ≠ 0#32 := by
  simp [State.irq]

/-- The request output says that some pipe of the table requests (R48). -/
theorem State.irq_iff_exists_requests (s : State) (hn : s.nPipes ≤ 32) :
    s.irq = true ↔ ∃ i, i < s.nPipes ∧ (s.entry i).cb.requests = true := by
  rw [s.irq_iff]
  constructor
  · intro hne
    by_contra! hnone
    refine hne (BitVec.eq_of_getLsbD_eq fun i hi => ?_)
    obtain hlt | hge := lt_or_ge i s.nPipes
    · rw [s.getLsbD_intSummary i hi, Bool.eq_false_iff.2 (hnone i hlt), BitVec.getLsbD_zero]
    · rw [s.getLsbD_intSummary_of_nPipes_le i hge, BitVec.getLsbD_zero]
  · rintro ⟨i, hi, hreq⟩ hzero
    rw [← s.getLsbD_intSummary i (hi.trans_le hn), hzero, BitVec.getLsbD_zero] at hreq
    cases hreq

/-- Settles O47: bit by bit the summary is the pipes' requests. -/
theorem summaryBitsFollowStatusAndEnable : Obligations.SummaryBitsFollowStatusAndEnable := by
  intro s hn
  refine ⟨rfl, s.regRead_of_alive .intSummary, fun i hi => ?_, s.getLsbD_intSummary_of_nPipes_le,
    s.regWrite_intSummary_pipes, s.irq_iff, ?_⟩
  · rw [s.getLsbD_intSummary i (hi.trans_le hn), CtrlBlock.requests_iff]
  · simpa only [CtrlBlock.requests_iff] using s.irq_iff_exists_requests hn

/-! ### Writes at a port (R21, R104) -/

theorem acceptCommand_of_not_accepts (s : State) (h : Nat) (w : U32) (hacc : (s.portAt h).accepts = false) :
    acceptCommand h w s = .next s := by
  simp [acceptCommand, hacc]

theorem writeOperand_of_not_accepts (s : State) (h : Nat) (i : Fin 5) (v : Nat) (hacc : (s.portAt h).accepts = false) :
    writeOperand h i v s = .next s := by
  simp [writeOperand, hacc]

theorem writeOperand_of_accepts (s : State) (h : Nat) (i : Fin 5) (v : Nat) (hlt : h < s.nHosts)
    (hacc : (s.portAt h).accepts = true) :
    writeOperand h i v s = .next { s with ports := s.ports.set h ((s.portAt h).put i (s.inWidth v)) } := by
  simp [writeOperand, hlt, hacc]

theorem step_of_inputs {s : State} {a : Input} {rest : List Input} (hi : s.inputs = a :: rest) :
    step s = perform a { s with inputs := rest } := by
  simp [step, takeInput, hi]

/-- A register write field by field. -/
theorem Port.put_eq (p : Port) (i : Fin 5) (v : Nat) :
    p.put i v = { p with
      x0 := if i = 0 then v else p.x0
      x1 := if i = 1 then v else p.x1
      x2 := if i = 2 then v else p.x2
      x3 := if i = 3 then v else p.x3
      x4 := if i = 4 then v else p.x4 } := by
  fin_cases i <;> rfl

/-- Settles O8: the write is dropped where the port does not accept it, else it is one register of one port. -/
theorem portWritesLandOnlyWhereAccepted : Obligations.PortWritesLandOnlyWhereAccepted := by
  refine ⟨fun s h w rest hi hacc => ?_, fun s h i v rest hi hacc => ?_, fun s h i v rest hi hlt hacc => ?_⟩
  · exact (step_of_inputs hi).trans (acceptCommand_of_not_accepts _ h w hacc)
  · exact (step_of_inputs hi).trans (writeOperand_of_not_accepts _ h i v hacc)
  · refine ⟨_, (step_of_inputs hi).trans (writeOperand_of_accepts _ h i v hlt hacc), rfl, ?_, List.length_set, ?_⟩
    · exact ((State.portAt_set _ h h _).trans (if_pos ⟨rfl, hlt⟩)).trans (Port.put_eq _ i _)
    · exact fun k hk => (State.portAt_set _ h k _).trans (if_neg fun hkh => hk hkh.1)

/-! ### Reset (R55) -/

/-- At reset every entry of the pipe table is the reset entry. -/
theorem State.entry_of_mem_reset {e : PipeEntry} (he : e ∈ State.reset.pipes) : e = PipeEntry.reset :=
  List.eq_of_mem_replicate he

theorem State.reset_entry (id : Nat) : State.reset.entry id = PipeEntry.reset :=
  (State.reset.forall_entry_iff (Q := (· = PipeEntry.reset)) rfl).1 (fun _ => State.entry_of_mem_reset) id

theorem State.port_of_mem_reset {p : Port} (hp : p ∈ State.reset.ports) : p = Port.reset :=
  List.eq_of_mem_replicate hp

theorem State.reset_regions : State.reset.regions = [] := by decide

theorem State.reset_sound : Sound State.reset := by
  refine ⟨⟨.nil, nofun⟩, fun e he => ?_, ?_, fun id _ _ hphase => ?_, nofun, by decide, fun p hp => ?_, fun e he => ?_⟩
  · rw [State.entry_of_mem_reset he]
    exact ⟨nofun, nofun, fun _ => ⟨rfl, rfl⟩⟩
  · rw [RegionsDisjoint, State.reset_regions]
    exact .nil
  · exact absurd (congrArg (·.pipe.phase) (State.reset_entry id)) hphase
  · rw [State.port_of_mem_reset hp]
    decide
  · rw [State.entry_of_mem_reset he]
    exact ⟨nofun, nofun⟩

/-- Settles O58: every entry and every port is its reset value. -/
theorem resetStateIsSound : Obligations.ResetStateIsSound := by
  refine ⟨fun e he => ?_, rfl, fun p hp => ?_, by decide +kernel, State.reset_sound⟩
  · rw [State.entry_of_mem_reset he]
    exact ⟨rfl, rfl, rfl⟩
  · rw [State.port_of_mem_reset hp]
    exact ⟨rfl, rfl⟩

end Sys2Proof.Machine
end

section
/-! Fields of ring memory and addresses of registers (spec/20_memory.md R70, R76). -/

namespace Sys2Proof.Machine

/-! ### Four-byte fields (R14, R70) -/

/-- Byte `j` of a stored field. -/
theorem Memory.read_write4_inside (m : Memory) (a j : Nat) (v : U32) (hj : j < 4) :
    Memory.read (Memory.write4 m a v) (a + j) = v.extractLsb' (8 * j) 8 := by
  rw [Memory.read_write4]
  interval_cases j <;> simp

/-- The four bytes of a word, the highest first, are the word. -/
theorem bytes_append (v : U32) :
    v.extractLsb' 24 8 ++ v.extractLsb' 16 8 ++ v.extractLsb' 8 8 ++ v.extractLsb' 0 8 = v := by
  rw [BitVec.extractLsb'_append_extractLsb'_eq_extractLsb' (show 24 = 16 + 8 from rfl),
    BitVec.extractLsb'_append_extractLsb'_eq_extractLsb' (show 16 = 8 + 8 from rfl),
    BitVec.extractLsb'_append_extractLsb'_eq_extractLsb' (show 8 = 0 + 8 from rfl)]
  exact BitVec.extractLsb'_eq_self

/-- A stored field is read back whole. -/
theorem Memory.read4_write4_same (m : Memory) (a : Nat) (v : U32) : Memory.read4 (Memory.write4 m a v) a = v := by
  have hfirst : Memory.read (Memory.write4 m a v) a = v.extractLsb' 0 8 := Memory.read_write4_inside m a 0 v (by decide)
  unfold Memory.read4
  rw [hfirst, Memory.read_write4_inside m a 1 v (by decide), Memory.read_write4_inside m a 2 v (by decide),
    Memory.read_write4_inside m a 3 v (by decide)]
  exact bytes_append v

/-- Settles O14: each byte of a store lands at its own address, and the four bytes read together are the word. -/
theorem fieldStoresAreLittleEndian : Obligations.FieldStoresAreLittleEndian := fun m a v =>
  ⟨fun j hj => Memory.read_write4_inside m a j v hj, Memory.read4_write4_same m a v,
    fun b hb => Memory.read_write4_outside m a b v hb, Memory.write4_wf m a v⟩

/-! ### Register addresses (R16, R76) -/

theorem mem_allFields (f : RegField) : f ∈ allFields := by
  cases f <;> decide

/-- What R76 asks of the register map, without the alignments. -/
structure RegisterMapOk (c : Config) (nPipes : Nat) : Prop where
  distinct : (allFields.map c.offsets.get).Nodup
  offset_lt : ∀ f, (c.offsets.get f).toNat < c.pipeStride.toNat
  blocks : c.cbBase0.toNat + nPipes * c.pipeStride.toNat ≤ 2 ^ 32
  summary : c.intSummaryAddr.toNat < c.cbBase0.toNat ∨
    c.cbBase0.toNat + nPipes * c.pipeStride.toNat ≤ c.intSummaryAddr.toNat

theorem registerMapOk_of_mapOk {c : Config} {n : Nat} (h : c.mapOk n = true) : RegisterMapOk c n := by
  simp only [Config.mapOk, Bool.and_eq_true, Bool.or_eq_true, decide_eq_true_eq, List.all_eq_true] at h
  obtain ⟨⟨⟨⟨⟨⟨hdistinct, hoffset⟩, -⟩, -⟩, -⟩, hblocks⟩, hsummary⟩ := h
  exact ⟨hdistinct, fun f => (hoffset f (mem_allFields f)).2, hblocks, hsummary⟩

/-- The offset parameters of two registers differ. -/
theorem RegisterMapOk.offset_injective {c : Config} {n : Nat} (h : RegisterMapOk c n) {f g : RegField}
    (e : c.offsets.get f = c.offsets.get g) : f = g :=
  List.inj_on_of_nodup_map h.distinct (mem_allFields f) (mem_allFields g) e

/-- A register lies inside its own block, below the end of the last one. -/
theorem RegisterMapOk.register_lt {c : Config} {n : Nat} (h : RegisterMapOk c n) {id : Nat} (hid : id < n)
    (f : RegField) :
    id * c.pipeStride.toNat + (c.offsets.get f).toNat < n * c.pipeStride.toNat :=
  calc id * c.pipeStride.toNat + (c.offsets.get f).toNat
      < id * c.pipeStride.toNat + c.pipeStride.toNat := Nat.add_lt_add_left (h.offset_lt f) _
    _ = (id + 1) * c.pipeStride.toNat := (Nat.succ_mul _ _).symm
    _ ≤ n * c.pipeStride.toNat := Nat.mul_le_mul_right _ hid

/-- The address of a block register, which R76 keeps from wrapping around. -/
theorem State.regAddr_block_toNat {s : State} {id : Nat} (h : RegisterMapOk s.cfg s.nPipes) (hid : id < s.nPipes)
    (f : RegField) : (s.regAddr (.block id f)).toNat =
      s.cfg.cbBase0.toNat + (id * s.cfg.pipeStride.toNat + (s.cfg.offsets.get f).toNat) := by
  have hlt := h.register_lt hid f
  have hblocks := h.blocks
  simp only [State.regAddr, State.controlBlockAddress, BitVec.toNat_add, BitVec.toNat_mul, BitVec.toNat_ofNat,
    Nat.mod_mul_mod, Nat.add_mod_mod, Nat.mod_add_mod, Nat.add_assoc]
  exact Nat.mod_eq_of_lt (by omega)

/-- Quotient and remainder of a sum by the stride. -/
theorem mul_add_inj {k i j a b : Nat} (ha : a < k) (hb : b < k) (e : i * k + a = j * k + b) : i = j ∧ a = b := by
  have hmod : a = b := by
    simpa [Nat.mul_add_mod_self_right, Nat.mod_eq_of_lt ha, Nat.mod_eq_of_lt hb] using congrArg (· % k) e
  subst hmod
  exact ⟨Nat.eq_of_mul_eq_mul_right (Nat.zero_lt_of_lt ha) (Nat.add_right_cancel e), rfl⟩

/-- Settles O15: the quotient and the remainder of an address by the stride are the pipe and the register's offset. -/
theorem registerAddressesAreDistinct : Obligations.RegisterAddressesAreDistinct := by
  intro s hmap
  have h := registerMapOk_of_mapOk hmap
  refine ⟨fun i j f g hi hj e => ?_, fun i f hi e => ?_⟩
  · have hsum : i * s.cfg.pipeStride.toNat + (s.cfg.offsets.get f).toNat =
        j * s.cfg.pipeStride.toNat + (s.cfg.offsets.get g).toNat := by
      have := congrArg BitVec.toNat e
      rwa [State.regAddr_block_toNat h hi, State.regAddr_block_toNat h hj, Nat.add_left_cancel_iff] at this
    obtain ⟨hid, hoffset⟩ := mul_add_inj (h.offset_lt f) (h.offset_lt g) hsum
    exact ⟨hid, h.offset_injective (BitVec.eq_of_toNat_eq hoffset)⟩
  · have haddr := congrArg BitVec.toNat e
    rw [State.regAddr_block_toNat h hi] at haddr
    have hlt := h.register_lt hi f
    have hsummary := h.summary
    simp only [State.regAddr] at haddr
    omega

end Sys2Proof.Machine
end

section
/-! The regions of the rings: every step keeps them disjoint (spec/20_memory.md R77). -/

namespace Sys2Proof.Machine

section
variable {s t : State}

/-! ### Regions that share no byte -/

/-- No region of one list shares a byte with a region of the other. -/
def Separated (l m : List Region) : Prop := ∀ a ∈ l, ∀ b ∈ m, disjointRegions a b = true

theorem disjointRegions_comm (a b : Region) : disjointRegions a b = disjointRegions b a := by
  simp [disjointRegions, or_comm]

theorem Separated.symm {l m : List Region} (h : Separated l m) : Separated m l :=
  fun b hb a ha => (disjointRegions_comm b a).trans (h a ha b hb)

theorem Separated.append_right_iff {l m n : List Region} :
    Separated l (m ++ n) ↔ Separated l m ∧ Separated l n := by
  simp only [Separated, List.forall_mem_append, forall_and]

/-- One side of a pipe has at most one region. -/
theorem pairwise_toList {α : Type} {R : α → α → Prop} (o : Option α) : o.toList.Pairwise R := by
  cases o <;> simp

/-- A pipe beyond the table has no ring. -/
theorem State.pipe_regions_of_nPipes_le {id : Nat} (h : s.nPipes ≤ id) : (s.pipe id).regions = [] := by
  have : s.pipes[id]? = none := List.getElem?_eq_none h
  rw [State.pipe, State.entry, List.getD_eq_getElem?_getD, this]
  rfl

theorem State.pipe_eq_getElem {id : Nat} (h : id < s.pipes.length) : s.pipe id = s.pipes[id].pipe := by
  simp [State.pipe, State.entry, h]

theorem State.mem_regions {id : Nat} {a : Region} (h : a ∈ (s.pipe id).regions) : a ∈ s.regions := by
  obtain hid | hid := lt_or_ge id s.nPipes
  · rw [State.pipe_eq_getElem hid] at h
    exact List.mem_flatMap.2 ⟨_, List.getElem_mem hid, h⟩
  · rw [State.pipe_regions_of_nPipes_le hid] at h
    cases h

/-- `RegionsDisjoint` read through the accessor of the table: inside one pipe, and between two pipes. -/
theorem regionsDisjoint_iff (s : State) :
    RegionsDisjoint s ↔ (∀ id, (s.pipe id).regions.Pairwise fun a b => disjointRegions a b = true) ∧
      ∀ i j, i < j → Separated (s.pipe i).regions (s.pipe j).regions := by
  refine List.pairwise_flatMap.trans (and_congr ?_ ?_)
  · exact s.forall_entry_iff (Q := fun e => e.pipe.regions.Pairwise fun a b => disjointRegions a b = true) .nil
  · rw [List.pairwise_iff_getElem]
    refine ⟨fun h i j hij => ?_, fun h i j hi hj hij => ?_⟩
    · obtain hj | hj := lt_or_ge j s.nPipes
      · rw [State.pipe_eq_getElem (hij.trans hj), State.pipe_eq_getElem hj]
        exact h i j (hij.trans hj) hj hij
      · rw [State.pipe_regions_of_nPipes_le hj]
        exact fun _ _ => nofun
    · have := h i j hij
      rwa [State.pipe_eq_getElem hi, State.pipe_eq_getElem hj] at this

/-! ### Updates -/

/-- The regions decide, and nothing else of a pipe. -/
theorem RegionsDisjoint.of_regions_eq (hs : RegionsDisjoint s)
    (h : ∀ id, (t.pipe id).regions = (s.pipe id).regions) : RegionsDisjoint t := by
  rw [regionsDisjoint_iff] at hs ⊢
  simpa only [h] using hs

/-- A pipe whose rings share no byte with each other or with another pipe's takes the place of one. -/
theorem RegionsDisjoint.setPipe (hs : RegionsDisjoint s) {id : Nat} {p : Pipe}
    (hp : p.regions.Pairwise fun a b => disjointRegions a b = true)
    (hother : ∀ j, j ≠ id → Separated p.regions (s.pipe j).regions) : RegionsDisjoint (s.setPipe id p) := by
  rw [regionsDisjoint_iff] at hs ⊢
  obtain ⟨hin, hbetween⟩ := hs
  refine ⟨fun j => ?_, fun i j hij => ?_⟩
  · rw [State.setPipe_pipe]
    split
    · exact hp
    · exact hin j
  · rw [State.setPipe_pipe, State.setPipe_pipe]
    split
    next hi =>
      rw [if_neg fun hj => hij.ne (hi.1.trans hj.1.symm)]
      exact hother j fun hj => hij.ne (hi.1.trans hj.symm)
    next =>
      split
      next hj => exact (hother i fun hi => hij.ne (hi.trans hj.1.symm)).symm
      next => exact hbetween i j hij

/-- A pipe that keeps its regions. -/
theorem RegionsDisjoint.setPipe_same (hs : RegionsDisjoint s) {id : Nat} {p : Pipe}
    (hp : p.regions = (s.pipe id).regions) : RegionsDisjoint (s.setPipe id p) := by
  refine hs.of_regions_eq fun j => ?_
  rw [State.setPipe_pipe]
  split
  next h => rw [hp, h.1]
  next => rfl

/-- An update moves no ring. -/
theorem Ring.Updated.region {x1 : Nat} {r r' : Ring} (h : r.Updated x1 r') : r'.region = r.region := by
  simp [Ring.region, Ring.bytes, h.cap, h.base]

/-- A fresh ring lies where its region was granted. -/
theorem freshRing_region {c : Config} {taken : List Region} {g : NewRegion} (h : g.Granted c taken) (d : Nat) :
    (freshRing g d).region = g.region :=
  congrArg (fun n => (g.da.toNat, n * descSize)) h.toNat_cap

/-- A side's granted region shares no byte with the regions in use. -/
theorem NewRegion.Granted.separated {c : Config} {taken : List Region} {side : Option NewRegion}
    (h : ∀ g ∈ side, g.Granted c taken) : Separated (side.map NewRegion.region).toList taken := by
  intro a ha b hb
  obtain ⟨g, hg, rfl⟩ := Option.map_eq_some_iff.1 (Option.mem_toList.1 ha)
  exact (h g hg).contract.2 b hb

/-- The rings `alloc_pipe` makes lie in the regions granted for them. -/
theorem allocatedPipe_regions {c : Config} {taken taken' : List Region} (p : Port) (d : Nat)
    {src dst : Option NewRegion} (hsrc : ∀ g ∈ src, g.Granted c taken) (hdst : ∀ g ∈ dst, g.Granted c taken') :
    (allocatedPipe p (src.map fun g => freshSrcRing g d) (dst.map fun g => freshRing g (d + 3))).regions =
      (src.map NewRegion.region).toList ++ (dst.map NewRegion.region).toList := by
  unfold Pipe.regions allocatedPipe
  congr 2
  · rw [Option.map_map]
    exact Option.map_congr fun g hg => freshRing_region (hsrc g hg) d
  · rw [Option.map_map]
    exact Option.map_congr fun g hg => freshRing_region (hdst g hg) (d + 3)

/-! ### Every change and every step -/

theorem Change.regionsDisjoint (h : Change s t) (hs : RegionsDisjoint s) : RegionsDisjoint t := by
  cases h with
  | register id f v _ => exact hs.of_regions_eq fun j => by rw [State.regWrite_pipe]
  | device id f g _ => exact hs.of_regions_eq fun j => by rw [State.deviceWrite_pipe]
  | srcRing id r r' hr hu => exact hs.setPipe_same (by simp [Pipe.regions, hr, hu.ring.region])
  | dstRing id r r' hr hu => exact hs.setPipe_same (by simp [Pipe.regions, hr, hu.region])
  | phase id ph _ _ => exact hs.setPipe_same rfl
  | create id d src dst _ _ hsrc hdst =>
    have hsrcTaken := NewRegion.Granted.separated hsrc
    have hdstTaken := NewRegion.Granted.separated hdst
    rw [Separated.append_right_iff] at hdstTaken
    obtain ⟨hdstSrc, hdstTaken⟩ := hdstTaken
    have hregions := allocatedPipe_regions s.cur d hsrc hdst
    refine hs.setPipe ?_ fun j _ => ?_ <;> rw [hregions]
    · exact List.pairwise_append.2 ⟨pairwise_toList _, pairwise_toList _, hdstSrc.symm⟩
    · intro a ha b hb
      obtain ha | ha := List.mem_append.1 ha
      · exact hsrcTaken a ha b (State.mem_regions hb)
      · exact hdstTaken a ha b (State.mem_regions hb)
  | free id _ => exact hs.setPipe .nil fun _ _ => nofun
  | _ => exact hs

/-- Settles O55: only `create` places rings, in regions granted as distinct from those in use, whatever the
rings hold. -/
theorem stepKeepsRegionsDisjoint : Obligations.StepKeepsRegionsDisjoint :=
  fun _ _ _ hs h => (step_changes h).keeps (fun _ _ => Change.regionsDisjoint) hs

end

end Sys2Proof.Machine
end

section
/-! No operation faults while the rings are sound (spec/10_state.md R51, spec/20_memory.md R77). -/

namespace Sys2Proof.Machine

section
variable {s : State} {id : Nat} {f : Fault}

/-! ### Sound rings lie in device-bus space -/

theorem PipesOk.src_slotInSpace (hs : PipesOk s) {r : SrcRing} (hr : (s.pipe id).src = some r) :
    s.slotInSpace r.base r.sw = true ∧ s.slotInSpace r.base r.wr = true := by
  obtain ⟨hsrc, -, -⟩ := (pipesOk_iff s).1 hs id
  obtain ⟨hok, -⟩ := hsrc r hr
  have ⟨_, hsw, hwr, _⟩ := hok
  exact ⟨Ring.ok_slotInSpace s _ _ hok hsw, Ring.ok_slotInSpace s _ _ hok hwr⟩

theorem PipesOk.dst_slotInSpace (hs : PipesOk s) {r : Ring} (hr : (s.pipe id).dst = some r) :
    s.slotInSpace r.base r.sw = true ∧ s.slotInSpace r.base r.wr = true := by
  obtain ⟨-, hdst, -⟩ := (pipesOk_iff s).1 hs id
  have hok := hdst r hr
  have ⟨_, hsw, hwr, _⟩ := hok
  exact ⟨Ring.ok_slotInSpace s _ _ hok hsw, Ring.ok_slotInSpace s _ _ hok hwr⟩

theorem Ring.ok_regionInSpace {r : Ring} (h : r.ok s.cfg) : s.inSpace r.region.1 r.region.2 = true := by
  obtain ⟨_, _, _, _, hrange, _⟩ := h
  exact decide_eq_true hrange

theorem PipesOk.ringsInSpace (hs : PipesOk s) (id : Nat) : s.ringsInSpace (s.pipe id) = true := by
  obtain ⟨hsrc, hdst, -⟩ := (pipesOk_iff s).1 hs id
  refine List.all_eq_true.2 fun g hg => ?_
  obtain hg | hg := List.mem_append.1 hg
  · obtain ⟨r, hr, rfl⟩ := Option.map_eq_some_iff.1 (Option.mem_toList.1 hg)
    exact Ring.ok_regionInSpace (hsrc r hr).1
  · obtain ⟨r, hr, rfl⟩ := Option.map_eq_some_iff.1 (Option.mem_toList.1 hg)
    exact Ring.ok_regionInSpace (hdst r hr)

/-! ### The shared shapes of an operation -/

/-- A locked operation does not fault where its body does not: `enter` keeps the rings sound. -/
theorem State.locked_ne_fault {i : Instr} {nl legal : Bool} {body : State → Outcome} (hs : PipesOk s)
    (hbody : ∀ u, PipesOk u → body u ≠ .fault f) : s.locked i nl legal body ≠ .fault f :=
  fun h => hbody s.acquire hs (State.locked_fault s i nl legal body f h)

theorem State.withSrc_ne_fault {k : SrcRing → Outcome} (hk : ∀ r, (s.pipe id).src = some r → k r ≠ .fault f) :
    s.withSrc id k ≠ .fault f := by
  unfold State.withSrc
  split
  · nofun
  · split
    · nofun
    · next r hr => exact hk r hr

theorem State.withDst_ne_fault {k : Ring → Outcome} (hk : ∀ r, (s.pipe id).dst = some r → k r ≠ .fault f) :
    s.withDst id k ≠ .fault f := by
  unfold State.withDst
  split
  · nofun
  · split
    · nofun
    · next r hr => exact hk r hr

/-- Where the slot exists the only outcome is the operation's own. -/
theorem State.withSlot_ne_fault {base i : U32} {t : State} (h : s.slotInSpace base i = true) :
    s.withSlot base i (.next t) ≠ .fault f := by
  rw [State.withSlot_of_inSpace _ _ _ _ h]
  nofun

theorem State.serviceEntry_ne_fault {t : State} : s.serviceEntry (.next t) ≠ .fault f := by
  unfold State.serviceEntry
  split
  · nofun
  · split <;> nofun

/-! ### The operations that access a slot or a ring -/

theorem execSend_ne_fault (hs : PipesOk s) (nl : Bool) (p : PipeField) (g bs : Bool) (tid : TidField) :
    execSend nl p g bs tid s ≠ .fault f :=
  State.locked_ne_fault hs fun u hu => State.withSrc_ne_fault fun r hr => by
    split
    · nofun
    · split
      · nofun
      · exact State.withSlot_ne_fault (hu.src_slotInSpace hr).2

/-- The refreshed ring is one of the pipe in a state whose rings are sound still. -/
theorem execCompletedSendNext_ne_fault (hs : PipesOk s) (nl : Bool) (p : PipeField) :
    execCompletedSendNext nl p s ≠ .fault f :=
  State.locked_ne_fault hs fun u hu => State.withSrc_ne_fault fun r hr => by
    obtain ⟨v, e, -⟩ | ⟨v, r', e, hv, hr'⟩ := State.lazyRefresh_changes hr <;> rw [e]
    · nofun
    · have hok : PipesOk v := hv.keeps (fun _ _ => Change.pipesOk) hu
      dsimp only
      split
      · nofun
      · exact State.withSlot_ne_fault (hok.src_slotInSpace hr').1

theorem execCancelSendNext_ne_fault (hs : PipesOk s) (nl : Bool) (p : PipeField) :
    execCancelSendNext nl p s ≠ .fault f :=
  State.locked_ne_fault hs fun u hu => State.withSrc_ne_fault fun r hr => by
    split
    · nofun
    · exact State.withSlot_ne_fault (hu.src_slotInSpace hr).1

theorem execRxPostBuf_ne_fault (hs : PipesOk s) (nl : Bool) (p : PipeField) : execRxPostBuf nl p s ≠ .fault f :=
  State.locked_ne_fault hs fun u hu => State.withDst_ne_fault fun r hr => by
    split
    · nofun
    · exact State.withSlot_ne_fault (hu.dst_slotInSpace hr).2

theorem execCompletedRecvNext_ne_fault (hs : PipesOk s) (nl : Bool) (p : PipeField) :
    execCompletedRecvNext nl p s ≠ .fault f :=
  State.locked_ne_fault hs fun u hu => State.withDst_ne_fault fun r hr => by
    rw [State.withSlot_of_inSpace _ _ _ _ (hu.dst_slotInSpace hr).1]
    dsimp only
    split <;> nofun

theorem execRevokeRecvNext_ne_fault (hs : PipesOk s) (nl : Bool) (p : PipeField) :
    execRevokeRecvNext nl p s ≠ .fault f :=
  State.locked_ne_fault hs fun u hu => State.withDst_ne_fault fun r hr => by
    split
    · nofun
    · exact State.withSlot_ne_fault (hu.dst_slotInSpace hr).1

theorem execInitPipe_ne_fault (hs : PipesOk s) (nl : Bool) (p : PipeField) : execInitPipe nl p s ≠ .fault f :=
  State.locked_ne_fault hs fun u hu => by
    rw [if_pos (hu.ringsInSpace p.toNat)]
    split <;> nofun

/-! ### The operations without such an access -/

theorem execAvailableSendSlots_ne_fault (hs : PipesOk s) (nl : Bool) (p : PipeField) :
    execAvailableSendSlots nl p s ≠ .fault f :=
  State.locked_ne_fault hs fun _ _ => State.withSrc_ne_fault fun _ _ => nofun

theorem execAvailableRecvSlots_ne_fault (hs : PipesOk s) (nl : Bool) (p : PipeField) :
    execAvailableRecvSlots nl p s ≠ .fault f :=
  State.locked_ne_fault hs fun _ _ => State.withDst_ne_fault fun _ _ => nofun

theorem execEnableInterrupts_ne_fault (hs : PipesOk s) (nl : Bool) : execEnableInterrupts nl s ≠ .fault f :=
  State.locked_ne_fault hs fun _ _ => nofun

theorem execDisableInterrupts_ne_fault (hs : PipesOk s) (nl : Bool) : execDisableInterrupts nl s ≠ .fault f :=
  State.locked_ne_fault hs fun _ _ => nofun

theorem execRevertLastGather_ne_fault (hs : PipesOk s) (nl : Bool) (p : PipeField) :
    execRevertLastGather nl p s ≠ .fault f :=
  State.locked_ne_fault hs fun u _ => State.withSrc_ne_fault fun r _ => by
    dsimp only
    split <;> nofun

theorem execRxUpdateWriteIdx_ne_fault (hs : PipesOk s) (nl : Bool) (p : PipeField) :
    execRxUpdateWriteIdx nl p s ≠ .fault f :=
  State.locked_ne_fault hs fun u _ => State.withDst_ne_fault fun r _ => by
    dsimp only
    split <;> nofun

theorem execAllocPipe_ne_fault (hs : PipesOk s) (nl : Bool) (p : PipeField) : execAllocPipe nl p s ≠ .fault f :=
  State.locked_ne_fault hs fun u _ => by
    split
    · nofun
    · split
      · nofun
      · split
        · nofun
        · nofun
        · split <;> nofun

theorem execDeinitPipe_ne_fault (hs : PipesOk s) (nl : Bool) (p : PipeField) : execDeinitPipe nl p s ≠ .fault f :=
  State.locked_ne_fault hs fun u _ => by
    split <;> nofun

theorem execFreePipe_ne_fault (hs : PipesOk s) (nl : Bool) (p : PipeField) : execFreePipe nl p s ≠ .fault f :=
  State.locked_ne_fault hs fun u _ => by
    dsimp only
    split <;> nofun

theorem execLock_ne_fault : execLock s ≠ .fault f := by
  unfold execLock
  split
  · nofun
  · split <;> nofun

theorem execUnlock_ne_fault : execUnlock s ≠ .fault f := by
  unfold execUnlock
  split <;> nofun

theorem execServicePipe_ne_fault (p : PipeField) : execServicePipe p s ≠ .fault f := by
  unfold execServicePipe
  split
  · exact State.serviceEntry_ne_fault
  · nofun

/-! ### Every operation -/

theorem PipesOk.exec_ne_fault (hs : PipesOk s) (i : Instr) (f : Fault) : exec i s ≠ .fault f := by
  cases i with
  | lock => exact execLock_ne_fault
  | unlock => exact execUnlock_ne_fault
  | send nl p g bs tid => exact execSend_ne_fault hs nl p g bs tid
  | revertLastGather nl p => exact execRevertLastGather_ne_fault hs nl p
  | completedSendNext nl p => exact execCompletedSendNext_ne_fault hs nl p
  | cancelSendNext nl p => exact execCancelSendNext_ne_fault hs nl p
  | availableSendSlots nl p => exact execAvailableSendSlots_ne_fault hs nl p
  | rxPostBuf nl p => exact execRxPostBuf_ne_fault hs nl p
  | rxUpdateWriteIdx nl p => exact execRxUpdateWriteIdx_ne_fault hs nl p
  | completedRecvNext nl p => exact execCompletedRecvNext_ne_fault hs nl p
  | revokeRecvNext nl p => exact execRevokeRecvNext_ne_fault hs nl p
  | availableRecvSlots nl p => exact execAvailableRecvSlots_ne_fault hs nl p
  | allocPipe nl p => exact execAllocPipe_ne_fault hs nl p
  | initPipe nl p => exact execInitPipe_ne_fault hs nl p
  | deinitPipe nl p => exact execDeinitPipe_ne_fault hs nl p
  | freePipe nl p => exact execFreePipe_ne_fault hs nl p
  | servicePipe p => exact execServicePipe_ne_fault p
  | serviceAnyPending => exact State.serviceEntry_ne_fault
  | enableInterrupts nl => exact execEnableInterrupts_ne_fault hs nl
  | disableInterrupts nl => exact execDisableInterrupts_ne_fault hs nl

/-- Settles O57: a sound ring's indices are slots of its array, and the array lies in device-bus space. -/
theorem noOperationFaultsInSoundState : Obligations.NoOperationFaultsInSoundState := fun _ hs =>
  ⟨fun _ _ hr => hs.src_slotInSpace hr, fun _ _ hr => hs.dst_slotInSpace hr, hs.ringsInSpace, hs.exec_ne_fault⟩

end

end Sys2Proof.Machine
end

section
/-! The command word (spec/30_encoding.md R104 to R108): a legal word is its fields, packed in its format, and the
decoder answers an operation exactly where that operation's row accepts the word and its operands are the word's fields. -/

namespace Sys2Proof

open Laws

/-! ### The fields of a packed word (R105, R107): every format is format S with some fields at zero -/

section
variable (tid : TidField) (bs g nl : Bool) (p : PipeField) (op : BitVec 8)

theorem packP_eq_packS : packP nl p op = packS 0#14 false false nl p op := by
  simp [packP, packS, bit]

theorem packPX_eq_packS : packPX p op = packS 0#14 false false false p op := packP_eq_packS false p op

theorem packE_eq_packS : packE nl op = packS 0#14 false false nl 0#5 op := packP_eq_packS nl 0#5 op

@[simp] theorem opField_packS : opField (packS tid bs g nl p op) = op := BitVec.extractLsb'_append_eq_right

@[simp] theorem pipeField_packS : pipeField (packS tid bs g nl p op) = p := by
  simp only [pipeField, packS]
  rw [BitVec.extractLsb'_append_eq_of_le (by decide)]
  exact BitVec.extractLsb'_append_eq_right

@[simp] theorem nlField_packS : nlField (packS tid bs g nl p op) = nl := by
  simp only [nlField, packS, bit, BitVec.getLsbD_append]
  simp

@[simp] theorem gField_packS : gField (packS tid bs g nl p op) = g := by
  simp only [gField, packS, bit, BitVec.getLsbD_append]
  simp

@[simp] theorem bsField_packS : bsField (packS tid bs g nl p op) = bs := by
  simp only [bsField, packS, bit, BitVec.getLsbD_append]
  simp

@[simp] theorem tidField_packS : tidField (packS tid bs g nl p op) = tid := by
  simp only [tidField, packS]
  iterate 5 rw [BitVec.extractLsb'_append_eq_of_le (by decide)]
  exact BitVec.extractLsb'_append_eq_right

end

/-! ### A word whose fixed bits are right is its fields, packed (R107) -/

/-- The bits that the format fixes hold the opcode in `OP` and zero elsewhere, R107. -/
abbrev Format.Fixed (f : Format) (w : U32) : Prop := w &&& f.mask = (opField w).setWidth 32

/-- Every format fixes the whole of `OP`. -/
theorem opField_and_mask (f : Format) (w : U32) : opField (w &&& f.mask) = opField w := by
  have hop : opField f.mask = BitVec.allOnes 8 := by cases f <;> decide
  calc opField (w &&& f.mask) = opField w &&& opField f.mask := BitVec.extractLsb'_and
    _ = opField w := by rw [hop, BitVec.and_allOnes]

/-- A range of bits above `OP` that the format fixes is zero. -/
theorem Format.Fixed.extractLsb'_eq_zero {f : Format} {w : U32} (h : f.Fixed w) {start len : Nat}
    (hmask : f.mask.extractLsb' start len = BitVec.allOnes len) (hstart : 8 ≤ start) :
    w.extractLsb' start len = 0#len := by
  have habove : ((opField w).setWidth 32).extractLsb' start len = 0#len := by
    refine BitVec.eq_of_getLsbD_eq fun k _ => ?_
    simp [show 8 ≤ start + k by omega]
  calc w.extractLsb' start len = (w &&& f.mask).extractLsb' start len := by
        rw [BitVec.extractLsb'_and, hmask, BitVec.and_allOnes]
    _ = 0#len := by rw [h, habove]

theorem bit_getLsbD (w : U32) (k : Nat) : bit (w.getLsbD k) = w.extractLsb' k 1 := by
  ext i hi
  simp [bit, Nat.lt_one_iff.1 hi]

section
variable {w : U32} {op : BitVec 8}

theorem packS_fields (hop : opField w = op) (h : Format.S.Fixed w) :
    packS (tidField w) (bsField w) (gField w) (nlField w) (pipeField w) op = w := by
  subst hop
  have htop : w.extractLsb' 30 2 = 0#2 := h.extractLsb'_eq_zero (by decide) (by decide)
  simp only [packS, ← htop, tidField, bsField, gField, nlField, pipeField, opField, bit_getLsbD]
  iterate 6 rw [BitVec.extractLsb'_append_extractLsb'_eq_extractLsb' (by decide)]
  exact BitVec.extractLsb'_eq_self

theorem packP_fields (hop : opField w = op) (h : Format.P.Fixed w) : packP (nlField w) (pipeField w) op = w := by
  subst hop
  have htop : w.extractLsb' 14 18 = 0#18 := h.extractLsb'_eq_zero (by decide) (by decide)
  simp only [packP, ← htop, nlField, pipeField, opField, bit_getLsbD]
  iterate 3 rw [BitVec.extractLsb'_append_extractLsb'_eq_extractLsb' (by decide)]
  exact BitVec.extractLsb'_eq_self

theorem packPX_fields (hop : opField w = op) (h : Format.PX.Fixed w) : packPX (pipeField w) op = w := by
  subst hop
  have htop : w.extractLsb' 13 19 = 0#19 := h.extractLsb'_eq_zero (by decide) (by decide)
  simp only [packPX, ← htop, pipeField, opField]
  iterate 2 rw [BitVec.extractLsb'_append_extractLsb'_eq_extractLsb' (by decide)]
  exact BitVec.extractLsb'_eq_self

theorem packE_fields (hop : opField w = op) (h : Format.E.Fixed w) : packE (nlField w) op = w := by
  subst hop
  have htop : w.extractLsb' 14 18 = 0#18 := h.extractLsb'_eq_zero (by decide) (by decide)
  have hpipe : w.extractLsb' 8 5 = 0#5 := h.extractLsb'_eq_zero (by decide) (by decide)
  simp only [packE, ← htop, ← hpipe, nlField, opField, bit_getLsbD]
  iterate 3 rw [BitVec.extractLsb'_append_extractLsb'_eq_extractLsb' (by decide)]
  exact BitVec.extractLsb'_eq_self

theorem packEX_fields (hop : opField w = op) (h : Format.EX.Fixed w) : packEX op = w := by
  subst hop
  have htop : w.extractLsb' 8 24 = 0#24 := h.extractLsb'_eq_zero (by decide) (by decide)
  simp only [packEX, ← htop, opField]
  rw [BitVec.extractLsb'_append_extractLsb'_eq_extractLsb' (by decide)]
  exact BitVec.extractLsb'_eq_self

end

/-! ### Operations and their rows (R108) -/

/-- The operation with its operands read from the word `w`, R105. -/
def Instr.withFields (w : U32) : Instr → Instr
  | .lock => .lock
  | .unlock => .unlock
  | .send _ _ _ _ _ => .send (nlField w) (pipeField w) (gField w) (bsField w) (tidField w)
  | .revertLastGather _ _ => .revertLastGather (nlField w) (pipeField w)
  | .completedSendNext _ _ => .completedSendNext (nlField w) (pipeField w)
  | .cancelSendNext _ _ => .cancelSendNext (nlField w) (pipeField w)
  | .availableSendSlots _ _ => .availableSendSlots (nlField w) (pipeField w)
  | .rxPostBuf _ _ => .rxPostBuf (nlField w) (pipeField w)
  | .rxUpdateWriteIdx _ _ => .rxUpdateWriteIdx (nlField w) (pipeField w)
  | .completedRecvNext _ _ => .completedRecvNext (nlField w) (pipeField w)
  | .revokeRecvNext _ _ => .revokeRecvNext (nlField w) (pipeField w)
  | .availableRecvSlots _ _ => .availableRecvSlots (nlField w) (pipeField w)
  | .allocPipe _ _ => .allocPipe (nlField w) (pipeField w)
  | .initPipe _ _ => .initPipe (nlField w) (pipeField w)
  | .deinitPipe _ _ => .deinitPipe (nlField w) (pipeField w)
  | .freePipe _ _ => .freePipe (nlField w) (pipeField w)
  | .servicePipe _ => .servicePipe (pipeField w)
  | .serviceAnyPending => .serviceAnyPending
  | .enableInterrupts _ => .enableInterrupts (nlField w)
  | .disableInterrupts _ => .disableInterrupts (nlField w)

/-- The `OP` field of an operation's row, R108. -/
def Instr.opcode (i : Instr) : BitVec 8 := opField (rowOf i).pattern

/-- The decoder's arm for each opcode of the map (R108). -/
theorem decode_of_opField {w : U32} {i : Instr} (h : opField w = i.opcode) :
    decode w = (rowOf i).format.accept w (i.withFields w) := by
  unfold decode
  rw [h]
  cases i <;> rfl

theorem Format.accept_eq_ok_iff {f : Format} {w : U32} {i j : Instr} :
    f.accept w i = .ok j ↔ f.Fixed w ∧ i = j := by
  unfold Format.accept
  split
  next hfixed => simp [Format.Fixed, hfixed]
  next hfixed => simp [Format.Fixed, hfixed]

/-- What the decoder accepts: an operation's opcode, its format's fixed bits, and the operands of the word. -/
theorem decode_eq_ok_iff {w : U32} {i : Instr} :
    decode w = .ok i ↔ opField w = i.opcode ∧ (rowOf i).format.Fixed w ∧ i.withFields w = i := by
  constructor
  · intro h
    unfold decode at h
    split at h
    case h_21 => cases h
    all_goals
      obtain ⟨hfixed, rfl⟩ := Format.accept_eq_ok_iff.1 h
      exact ⟨BitVec.eq_of_toNat_eq ‹_›, hfixed, rfl⟩
  · rintro ⟨hop, hfixed, hi⟩
    rw [decode_of_opField hop]
    exact Format.accept_eq_ok_iff.2 ⟨hfixed, hi⟩

/-- A row of the map accepts the words with its opcode and its format's fixed bits (R107). -/
theorem accepts_iff_of_mem {r : OpcodeRow} (hr : r ∈ opcodeRows) {w : U32} :
    r.accepts w = true ↔ opField w = opField r.pattern ∧ r.format.Fixed w := by
  have hpattern : ∀ r ∈ opcodeRows, (opField r.pattern).setWidth 32 = r.pattern := by decide
  rw [OpcodeRow.accepts, beq_iff_eq]
  constructor
  · intro h
    have hop : opField w = opField r.pattern := by rw [← opField_and_mask r.format w, h]
    exact ⟨hop, by rw [Format.Fixed, h, hop, hpattern r hr]⟩
  · rintro ⟨hop, hfixed⟩
    rw [hfixed, hop, hpattern r hr]

/-- The command word of every operation matches the operation's row. -/
theorem encodedRow (i : Instr) : EncodedRow.Statement i :=
  match i with
  | .lock => EncodedRow.lock
  | .unlock => EncodedRow.unlock
  | .send nl p g bs tid => EncodedRow.send nl p g bs tid
  | .revertLastGather nl p => EncodedRow.revertLastGather nl p
  | .completedSendNext nl p => EncodedRow.completedSendNext nl p
  | .cancelSendNext nl p => EncodedRow.cancelSendNext nl p
  | .availableSendSlots nl p => EncodedRow.availableSendSlots nl p
  | .rxPostBuf nl p => EncodedRow.rxPostBuf nl p
  | .rxUpdateWriteIdx nl p => EncodedRow.rxUpdateWriteIdx nl p
  | .completedRecvNext nl p => EncodedRow.completedRecvNext nl p
  | .revokeRecvNext nl p => EncodedRow.revokeRecvNext nl p
  | .availableRecvSlots nl p => EncodedRow.availableRecvSlots nl p
  | .allocPipe nl p => EncodedRow.allocPipe nl p
  | .initPipe nl p => EncodedRow.initPipe nl p
  | .deinitPipe nl p => EncodedRow.deinitPipe nl p
  | .freePipe nl p => EncodedRow.freePipe nl p
  | .servicePipe p => EncodedRow.servicePipe p
  | .serviceAnyPending => EncodedRow.serviceAnyPending
  | .enableInterrupts nl => EncodedRow.enableInterrupts nl
  | .disableInterrupts nl => EncodedRow.disableInterrupts nl

theorem rowOf_mem (i : Instr) : rowOf i ∈ opcodeRows := (encodedRow i).1

theorem accepts_encode (i : Instr) : (rowOf i).accepts (encode i) = true := (encodedRow i).2

/-- The decoder in terms of the opcode map: the operation's row accepts the word, and the operands are the word's. -/
theorem decode_eq_ok_iff_accepts {w : U32} {i : Instr} :
    decode w = .ok i ↔ (rowOf i).accepts w = true ∧ i.withFields w = i := by
  rw [decode_eq_ok_iff, accepts_iff_of_mem (rowOf_mem i), and_assoc, Instr.opcode]

/-! ### Round trips -/

theorem Instr.withFields_encode (i : Instr) : i.withFields (encode i) = i := by
  cases i <;> simp [Instr.withFields, encode, packP_eq_packS, packPX_eq_packS, packE_eq_packS]

/-- Settles O1: a command word matches its operation's row and keeps every operand in its field. -/
theorem decodeInvertsEncode : Obligations.DecodeInvertsEncode := fun i =>
  decode_eq_ok_iff_accepts.2 ⟨accepts_encode i, i.withFields_encode⟩

/-- Settles O2: outside its fields a legal word holds its format's fixed bits alone, so its fields give it back. -/
theorem encodeInvertsDecode : Obligations.EncodeInvertsDecode := by
  intro w i h
  obtain ⟨hop, hfixed, hi⟩ := decode_eq_ok_iff.1 h
  rw [← hi]
  cases i with
  | lock | unlock | serviceAnyPending => exact packEX_fields hop hfixed
  | send nl p g bs tid => exact packS_fields hop hfixed
  | servicePipe p => exact packPX_fields hop hfixed
  | enableInterrupts nl | disableInterrupts nl => exact packE_fields hop hfixed
  | _ => exact packP_fields hop hfixed

/-! ### The opcode map (R108, R111) -/

/-- One operation of each row, in the order of the map. -/
def oneOfEachRow : List Instr :=
  [.lock, .unlock, .send false 0#5 false false 0#14, .revertLastGather false 0#5, .completedSendNext false 0#5,
   .cancelSendNext false 0#5, .availableSendSlots false 0#5, .rxPostBuf false 0#5, .rxUpdateWriteIdx false 0#5,
   .completedRecvNext false 0#5, .revokeRecvNext false 0#5, .availableRecvSlots false 0#5, .allocPipe false 0#5,
   .initPipe false 0#5, .deinitPipe false 0#5, .freePipe false 0#5, .servicePipe 0#5, .serviceAnyPending,
   .enableInterrupts false, .disableInterrupts false]

theorem map_rowOf_oneOfEachRow : oneOfEachRow.map rowOf = opcodeRows := rfl

theorem rowOf_withFields (w : U32) (i : Instr) : rowOf (i.withFields w) = rowOf i := by cases i <;> rfl

theorem Instr.withFields_withFields (w : U32) (i : Instr) : (i.withFields w).withFields w = i.withFields w := by
  cases i <;> rfl

/-- A word that a row accepts decodes to an operation of that row. -/
theorem exists_decode_of_accepts {r : OpcodeRow} (hr : r ∈ opcodeRows) {w : U32} (h : r.accepts w = true) :
    ∃ i, decode w = .ok i := by
  rw [← map_rowOf_oneOfEachRow] at hr
  obtain ⟨i, -, rfl⟩ := List.mem_map.1 hr
  exact ⟨i.withFields w, decode_eq_ok_iff_accepts.2
    ⟨by rwa [rowOf_withFields], i.withFields_withFields w⟩⟩

/-- No opcode stands in two rows. -/
theorem opcodeRows_eq_of_opField_eq {r₁ r₂ : OpcodeRow} (h₁ : r₁ ∈ opcodeRows) (h₂ : r₂ ∈ opcodeRows)
    (h : opField r₁.pattern = opField r₂.pattern) : r₁ = r₂ :=
  List.inj_on_of_nodup_map (f := fun r => opField r.pattern) (by decide) h₁ h₂ h

/-- Settles O3: the decoder reads the rows of the map, and two rows that accept one word have its opcode both. -/
theorem legalWordsMatchExactlyOneRow : Obligations.LegalWordsMatchExactlyOneRow := by
  refine ⟨fun w => ⟨?_, ?_⟩, fun w r₁ h₁ r₂ h₂ ha₁ ha₂ => ?_⟩
  · rintro ⟨i, h⟩
    exact ⟨rowOf i, rowOf_mem i, (decode_eq_ok_iff_accepts.1 h).1⟩
  · rintro ⟨r, hr, h⟩
    exact exists_decode_of_accepts hr h
  · obtain ⟨hop₁, -⟩ := (accepts_iff_of_mem h₁).1 ha₁
    obtain ⟨hop₂, -⟩ := (accepts_iff_of_mem h₂).1 ha₂
    exact opcodeRows_eq_of_opField_eq h₁ h₂ (hop₁.symm.trans hop₂)

/-- Settles O4: seven of the words are encodings; in the other two a fixed bit is set, and no row has the opcode. -/
theorem writtenOutWordsDecode : Obligations.WrittenOutWordsDecode :=
  ⟨decodeInvertsEncode (.send false 3#5 true false 5#14), decodeInvertsEncode (.send true 2#5 true true 0x3FFF#14),
    decodeInvertsEncode (.completedRecvNext true 7#5), decodeInvertsEncode (.initPipe false 1#5),
    decodeInvertsEncode (.servicePipe 2#5), decodeInvertsEncode (.enableInterrupts true), decodeInvertsEncode .unlock,
    by decide, by decide⟩

end Sys2Proof
end

section
/-! A command word at a port (spec/30_encoding.md R104, R111): the step runs the operation it decodes to, and illegal
commands are refused before anything else is looked at. -/

namespace Sys2Proof.Machine

/-! ### The command port (R104) -/

theorem runWord_of_ok {w : U32} {i : Instr} (h : decode w = .ok i) (s : State) : runWord w s = exec i s := by
  simp [runWord, h]

theorem runWord_of_illegal {w : U32} {why : IllegalWord} (h : decode w = .illegal why) (s : State) :
    runWord w s = .refused .illegalCommand := by
  simp [runWord, h]

/-- A command word at an existing port that accepts it is run for that port. -/
theorem step_command {s : State} {h : Nat} {w : U32} {rest : List Input} (hin : s.inputs = .command h w :: rest)
    (hport : h < s.nHosts) (hacc : (s.portAt h).accepts = true) :
    step s = runWord w { s with inputs := rest, port := h } := by
  calc step s = acceptCommand h w { s with inputs := rest } := by simp [step, takeInput, hin, perform]
    _ = runWord w { s with inputs := rest, port := h } := if_pos ⟨hport, hacc⟩

/-- Settles O5: the port takes the word, and a word that decodes is run as its operation. -/
theorem stepRunsTheDecodedOperation : Obligations.StepRunsTheDecodedOperation := by
  intro s h w rest i hin hport hacc hdec
  rw [step_command hin hport hacc, runWord_of_ok hdec]

/-- Settles O6: the port takes the word, and a word that does not decode is refused. -/
theorem illegalWordsAreRefusedByStep : Obligations.IllegalWordsAreRefusedByStep := by
  intro s h w rest why hin hport hacc hdec
  rw [step_command hin hport hacc, runWord_of_illegal hdec]

/-! ### Illegal commands (R111, R238 step 1) -/

/-- The shared shape of an operation checks the pipe id and the operands first. -/
theorem State.locked_of_illegal {s : State} {i : Instr} {legal : Bool} (h : i.wf s.nPipes = false ∨ legal = false)
    (nl : Bool) (body : State → Outcome) : s.locked i nl legal body = .refused .illegalCommand := by
  rcases h with hwf | hlegal
  · simp [State.locked, hwf]
  · simp [State.locked, hlegal]

/-- Every operation with a nolock form has the shared shape, with its own operands checked (R106, R210). -/
theorem exec_eq_locked {i : Instr} {nl : Bool} (h : i.nolock? = some nl) :
    ∃ body, ∀ s, exec i s = s.locked i nl (operandsOk i s.cur) body := by
  cases i with
  | lock | unlock | servicePipe p | serviceAnyPending => cases h
  | _ => cases h; exact ⟨_, fun _ => rfl⟩

/-- Of the operations without a nolock form `service_pipe` alone can be illegal, by its pipe id (R106, R180). -/
theorem exec_of_illegal_of_nolock_none {i : Instr} {s : State} (hi : i.nolock? = none)
    (h : i.wf s.nPipes = false ∨ operandsOk i s.cur = false) : exec i s = .refused .illegalCommand := by
  cases i with
  | lock | unlock | serviceAnyPending => simp [Instr.wf, Instr.pipe?, operandsOk] at h
  | servicePipe p =>
    have hwf : (Instr.servicePipe p).wf s.nPipes = false := by simpa [operandsOk] using h
    simp [exec, execServicePipe, hwf]
  | _ => cases hi

/-- Settles O7: every operation begins with the check of its pipe id and of its operands. -/
theorem illegalCommandsAreRefused : Obligations.IllegalCommandsAreRefused := by
  intro i s h
  cases hnl : i.nolock? with
  | none => exact exec_of_illegal_of_nolock_none hnl h
  | some nl =>
    obtain ⟨body, hexec⟩ := exec_eq_locked hnl
    rw [hexec]
    exact State.locked_of_illegal h nl body

end Sys2Proof.Machine
end

section
/-! The ring index arithmetic (spec/40_index_arithmetic.md R130 to R135). Masking with `2^k - 1` keeps the low `k` bits, and
the low bits of a sum or a difference depend on the low bits alone: a mask inside a masked sum or difference can be dropped
(`add_and_mask_and_mask` and its two companions), which turns an equation between indices into one of 32-bit words. -/

namespace Sys2Proof.Machine

/-- The `entries_mask` of a ring of `2^k` slots (R10). -/
abbrev entriesMask (k : Nat) : U32 := BitVec.ofNat 32 (2 ^ k - 1)

section
variable {k : Nat}

/-! ### Masked words -/

theorem two_pow_lt_word (hk : k < 32) : 2 ^ k < 2 ^ 32 := Nat.pow_lt_pow_right (by decide) hk

theorem two_pow_dvd_word (hk : k < 32) : 2 ^ k ∣ 2 ^ 32 := Nat.pow_dvd_pow 2 hk.le

theorem toNat_entriesMask (hk : k < 32) : (entriesMask k).toNat = 2 ^ k - 1 := by
  have hcap := two_pow_lt_word hk
  exact Nat.mod_eq_of_lt (by omega)

theorem toNat_and_mask (hk : k < 32) (x : U32) : (x &&& entriesMask k).toNat = x.toNat % 2 ^ k := by
  rw [BitVec.toNat_and, toNat_entriesMask hk, Nat.and_two_pow_sub_one_eq_mod]

theorem toNat_and_mask_lt (hk : k < 32) (x : U32) : (x &&& entriesMask k).toNat < 2 ^ k := by
  rw [toNat_and_mask hk]
  exact Nat.mod_lt _ (Nat.two_pow_pos k)

theorem toNat_and_mask_le (hk : k < 32) (x : U32) : (x &&& entriesMask k).toNat ≤ 2 ^ k - 1 :=
  Nat.le_sub_one_of_lt (toNat_and_mask_lt hk x)

/-- An index below the capacity is its own masked value. -/
theorem and_mask_of_lt (hk : k < 32) {i : U32} (hi : i.toNat < 2 ^ k) : i &&& entriesMask k = i :=
  BitVec.eq_of_toNat_eq (by rw [toNat_and_mask hk, Nat.mod_eq_of_lt hi])

theorem and_mask_of_le (hk : k < 32) {i : U32} (hi : i.toNat ≤ (entriesMask k).toNat) : i &&& entriesMask k = i := by
  rw [toNat_entriesMask hk] at hi
  exact and_mask_of_lt hk (Nat.lt_of_le_sub_one (Nat.two_pow_pos k) hi)

/-- The capacity divides the word size, so a sum that wraps is still a sum modulo the capacity (R131). -/
theorem toNat_add_and_mask (hk : k < 32) (x y : U32) :
    ((x + y) &&& entriesMask k).toNat = (x.toNat + y.toNat) % 2 ^ k := by
  rw [toNat_and_mask hk, BitVec.toNat_add, Nat.mod_mod_of_dvd _ (two_pow_dvd_word hk)]

/-- A difference that wraps below zero is still the difference modulo the capacity (R132). -/
theorem toNat_sub_and_mask (hk : k < 32) (x : U32) {y : U32} (hy : y.toNat ≤ 2 ^ k) :
    ((x - y) &&& entriesMask k).toNat = (x.toNat + (2 ^ k - y.toNat)) % 2 ^ k := by
  have hcap := two_pow_lt_word hk
  have hneg : 2 ^ 32 - y.toNat + x.toNat = (2 ^ 32 - 2 ^ k) + (x.toNat + (2 ^ k - y.toNat)) := by omega
  obtain ⟨q, hq⟩ := Nat.dvd_sub (two_pow_dvd_word hk) (dvd_refl (2 ^ k))
  rw [toNat_and_mask hk, BitVec.toNat_sub, Nat.mod_mod_of_dvd _ (two_pow_dvd_word hk), hneg, hq, Nat.mul_add_mod]

/-! ### A mask inside a masked sum or difference -/

/-- Masked words are equal exactly when their low `k` bits are. -/
theorem and_mask_eq_and_mask_iff (hk : k < 32) (x y : U32) :
    x &&& entriesMask k = y &&& entriesMask k ↔ x.setWidth k = y.setWidth k := by
  simp only [← BitVec.toNat_inj, toNat_and_mask hk, BitVec.toNat_setWidth]

theorem setWidth_and_mask (hk : k < 32) (x : U32) : (x &&& entriesMask k).setWidth k = x.setWidth k :=
  (and_mask_eq_and_mask_iff hk _ _).mp (by rw [BitVec.and_assoc, BitVec.and_self])

theorem setWidth_sub (hk : k < 32) (x y : U32) : (x - y).setWidth k = x.setWidth k - y.setWidth k := by
  rw [BitVec.sub_eq_add_neg, BitVec.setWidth_add _ _ hk.le, BitVec.setWidth_neg_of_le hk.le, ← BitVec.sub_eq_add_neg]

theorem add_and_mask_and_mask (hk : k < 32) (x y : U32) :
    ((x &&& entriesMask k) + y) &&& entriesMask k = (x + y) &&& entriesMask k := by
  rw [and_mask_eq_and_mask_iff hk, BitVec.setWidth_add _ _ hk.le, BitVec.setWidth_add _ _ hk.le, setWidth_and_mask hk]

theorem and_mask_sub_and_mask (hk : k < 32) (x y : U32) :
    ((x &&& entriesMask k) - y) &&& entriesMask k = (x - y) &&& entriesMask k := by
  rw [and_mask_eq_and_mask_iff hk, setWidth_sub hk, setWidth_sub hk, setWidth_and_mask hk]

theorem sub_and_mask_and_mask (hk : k < 32) (x y : U32) :
    (x - (y &&& entriesMask k)) &&& entriesMask k = (x - y) &&& entriesMask k := by
  rw [and_mask_eq_and_mask_iff hk, setWidth_sub hk, setWidth_sub hk, setWidth_and_mask hk]

theorem sub_and_mask_eq_zero_iff (hk : k < 32) (x y : U32) :
    (x - y) &&& entriesMask k = 0#32 ↔ x &&& entriesMask k = y &&& entriesMask k := by
  calc (x - y) &&& entriesMask k = 0#32
    _ ↔ (x - y) &&& entriesMask k = 0#32 &&& entriesMask k := by rw [BitVec.zero_and]
    _ ↔ x.setWidth k - y.setWidth k = 0#k := by
      rw [and_mask_eq_and_mask_iff hk, setWidth_sub hk, BitVec.setWidth_zero]
    _ ↔ x &&& entriesMask k = y &&& entriesMask k := by rw [and_mask_eq_and_mask_iff hk]; exact sub_eq_zero

/-! ### `increment` and `decrement` (R130, R133) -/

theorem toNat_increment (hk : k < 32) (i : U32) : (increment (entriesMask k) i).toNat = (i.toNat + 1) % 2 ^ k :=
  toNat_add_and_mask hk i 1#32

theorem toNat_decrement (hk : k < 32) (i : U32) :
    (decrement (entriesMask k) i).toNat = (i.toNat + (2 ^ k - 1)) % 2 ^ k :=
  toNat_sub_and_mask hk i (y := 1#32) Nat.one_le_two_pow

theorem decrement_increment (hk : k < 32) (i : U32) :
    decrement (entriesMask k) (increment (entriesMask k) i) = i &&& entriesMask k := by
  calc decrement (entriesMask k) (increment (entriesMask k) i)
    _ = (i + 1#32 - 1#32) &&& entriesMask k := and_mask_sub_and_mask hk (i + 1#32) 1#32
    _ = i &&& entriesMask k := by rw [BitVec.add_sub_cancel]

theorem increment_decrement (hk : k < 32) (i : U32) :
    increment (entriesMask k) (decrement (entriesMask k) i) = i &&& entriesMask k := by
  calc increment (entriesMask k) (decrement (entriesMask k) i)
    _ = (i - 1#32 + 1#32) &&& entriesMask k := add_and_mask_and_mask hk (i - 1#32) 1#32
    _ = i &&& entriesMask k := by rw [BitVec.sub_add_cancel]

theorem decrement_zero (m : U32) : decrement m 0#32 = m := BitVec.allOnes_and

theorem increment_entriesMask (hk : k < 32) : increment (entriesMask k) (entriesMask k) = 0#32 := by
  calc increment (entriesMask k) (entriesMask k)
    _ = increment (entriesMask k) (decrement (entriesMask k) 0#32) := by rw [decrement_zero]
    _ = 0#32 := by rw [increment_decrement hk, BitVec.zero_and]

/-! ### `add` (R131) -/

theorem toNat_addIndex (hk : k < 32) (i n : U32) :
    (addIndex (entriesMask k) i n).toNat = (i.toNat + n.toNat) % 2 ^ k :=
  toNat_add_and_mask hk i n

theorem addIndex_zero (m i : U32) : addIndex m i 0#32 = i &&& m := by
  rw [addIndex, BitVec.add_zero]

theorem addIndex_capacity (hk : k < 32) (i : U32) :
    addIndex (entriesMask k) i (BitVec.ofNat 32 (2 ^ k)) = i &&& entriesMask k := by
  have hcap : (BitVec.ofNat 32 (2 ^ k)).toNat = 2 ^ k := Nat.mod_eq_of_lt (two_pow_lt_word hk)
  exact BitVec.eq_of_toNat_eq (by rw [toNat_addIndex hk, hcap, Nat.add_mod_right, toNat_and_mask hk])

/-- All ones is `-1`. -/
theorem addIndex_allOnes (m i : U32) : addIndex m i 0xFFFFFFFF#32 = decrement m i := by
  rw [decrement, BitVec.sub_eq_add_neg]
  rfl

/-- `n` increments of an index are one `add` of `n`. -/
theorem iterate_increment (hk : k < 32) {i : U32} (hi : i.toNat < 2 ^ k) (n : Nat) :
    (increment (entriesMask k))^[n] i = addIndex (entriesMask k) i (BitVec.ofNat 32 n) := by
  induction n with
  | zero => exact ((addIndex_zero _ i).trans (and_mask_of_lt hk hi)).symm
  | succ n ih =>
    calc (increment (entriesMask k))^[n + 1] i
      _ = increment (entriesMask k) (addIndex (entriesMask k) i (BitVec.ofNat 32 n)) := by
        rw [Function.iterate_succ_apply', ih]
      _ = (i + BitVec.ofNat 32 n + 1#32) &&& entriesMask k := add_and_mask_and_mask hk (i + BitVec.ofNat 32 n) 1#32
      _ = addIndex (entriesMask k) i (BitVec.ofNat 32 (n + 1)) := by
        rw [addIndex, BitVec.add_assoc, BitVec.ofNat_add]

/-! ### `available_slots` (R132) -/

/-- The free slots run from the write index to the slot before the consumer index. -/
theorem availableSlots_eq (m w c : U32) : availableSlots m w c = (c - (w + 1#32)) &&& m := by
  rw [availableSlots, sub_sub, BitVec.add_comm]

theorem toNat_availableSlots (hk : k < 32) {w : U32} (hw : w.toNat < 2 ^ k) (c : U32) :
    (availableSlots (entriesMask k) w c).toNat = (c.toNat + (2 ^ k - (w.toNat + 1))) % 2 ^ k := by
  have hcap := two_pow_lt_word hk
  have hsucc : (w + 1#32).toNat = w.toNat + 1 := BitVec.toNat_add_of_lt (show w.toNat + 1 < 2 ^ 32 by omega)
  rw [availableSlots_eq, toNat_sub_and_mask hk c (by omega), hsucc]

theorem availableSlots_empty (m i : U32) : availableSlots m i i = m := by
  rw [availableSlots, sub_right_comm, BitVec.sub_self]
  exact decrement_zero m

theorem availableSlots_eq_zero_iff (hk : k < 32) {w : U32} (hw : w.toNat < 2 ^ k) (c : U32) :
    availableSlots (entriesMask k) w c = 0#32 ↔ w = decrement (entriesMask k) c := by
  rw [availableSlots, sub_and_mask_eq_zero_iff hk, and_mask_of_lt hk hw]
  exact eq_comm

/-! ### Free slots and outstanding descriptors (R135) -/

/-- `availableSlots` complements the count outstanding: `c - 1 - w` is `-1 - (w - c)`, and `-1` is the mask on its bits. -/
theorem availableSlots_eq_mask_sub_outstanding (hk : k < 32) (w c : U32) :
    availableSlots (entriesMask k) w c = entriesMask k - outstanding (entriesMask k) w c := by
  have hle : outstanding (entriesMask k) w c ≤ entriesMask k := by
    rw [BitVec.le_def, toNat_entriesMask hk]
    exact toNat_and_mask_le hk (w - c)
  have hmasked : (entriesMask k - outstanding (entriesMask k) w c) &&& entriesMask k
      = entriesMask k - outstanding (entriesMask k) w c :=
    and_mask_of_le hk (by rw [BitVec.toNat_sub_of_le hle]; exact Nat.sub_le _ _)
  calc availableSlots (entriesMask k) w c
    _ = (0#32 - 1#32 - (w - c)) &&& entriesMask k := by
      rw [sub_sub_eq_add_sub, BitVec.zero_sub, neg_add_eq_sub, availableSlots]
    _ = (decrement (entriesMask k) 0#32 - (w - c)) &&& entriesMask k := (and_mask_sub_and_mask hk _ _).symm
    _ = (entriesMask k - (w - c)) &&& entriesMask k := by rw [decrement_zero]
    _ = (entriesMask k - outstanding (entriesMask k) w c) &&& entriesMask k := (sub_and_mask_and_mask hk _ _).symm
    _ = entriesMask k - outstanding (entriesMask k) w c := hmasked

theorem availableSlots_add_outstanding (hk : k < 32) (w c : U32) :
    (availableSlots (entriesMask k) w c).toNat + (outstanding (entriesMask k) w c).toNat = 2 ^ k - 1 := by
  have hle : (outstanding (entriesMask k) w c).toNat ≤ 2 ^ k - 1 := toNat_and_mask_le hk (w - c)
  rw [← toNat_entriesMask hk] at hle ⊢
  rw [availableSlots_eq_mask_sub_outstanding hk, BitVec.toNat_sub_of_le hle, Nat.sub_add_cancel hle]

/-- An enqueue takes one of the free slots, where there is one. -/
theorem availableSlots_increment_write (hk : k < 32) {w c : U32} (hfree : availableSlots (entriesMask k) w c ≠ 0#32) :
    availableSlots (entriesMask k) (increment (entriesMask k) w) c = availableSlots (entriesMask k) w c - 1#32 := by
  have hlt : (availableSlots (entriesMask k) w c).toNat < 2 ^ k := toNat_and_mask_lt hk _
  have hle : 1#32 ≤ availableSlots (entriesMask k) w c := by bv_omega
  have hsub : (availableSlots (entriesMask k) w c - 1#32).toNat < 2 ^ k := by
    rw [BitVec.toNat_sub_of_le hle]
    exact (Nat.sub_le _ _).trans_lt hlt
  calc availableSlots (entriesMask k) (increment (entriesMask k) w) c
    _ = (c - 1#32 - (w + 1#32)) &&& entriesMask k := sub_and_mask_and_mask hk (c - 1#32) (w + 1#32)
    _ = (c - 1#32 - w - 1#32) &&& entriesMask k := by rw [← sub_sub]
    _ = (availableSlots (entriesMask k) w c - 1#32) &&& entriesMask k := (and_mask_sub_and_mask hk _ _).symm
    _ = availableSlots (entriesMask k) w c - 1#32 := and_mask_of_lt hk hsub

/-- A retrieval gives one slot back, where a descriptor is outstanding. -/
theorem availableSlots_increment_consumer (hk : k < 32) {w c : U32}
    (hused : availableSlots (entriesMask k) w c ≠ entriesMask k) :
    availableSlots (entriesMask k) w (increment (entriesMask k) c) = availableSlots (entriesMask k) w c + 1#32 := by
  have hcap := two_pow_lt_word hk
  have hmask := toNat_entriesMask hk
  have hle : (availableSlots (entriesMask k) w c).toNat ≤ 2 ^ k - 1 := toNat_and_mask_le hk _
  have hadd : (availableSlots (entriesMask k) w c + 1#32).toNat < 2 ^ k := by bv_omega
  calc availableSlots (entriesMask k) w (increment (entriesMask k) c)
    _ = (increment (entriesMask k) c - (w + 1#32)) &&& entriesMask k := availableSlots_eq _ _ _
    _ = (c + 1#32 - (w + 1#32)) &&& entriesMask k := and_mask_sub_and_mask hk (c + 1#32) (w + 1#32)
    _ = (c - 1#32 - w + 1#32) &&& entriesMask k := by congr 1; ring
    _ = (availableSlots (entriesMask k) w c + 1#32) &&& entriesMask k := (add_and_mask_and_mask hk _ _).symm
    _ = availableSlots (entriesMask k) w c + 1#32 := and_mask_of_lt hk hadd

end

/-! ### The statements -/

/-- Settles O9: the values modulo the capacity, and `decrement` and `increment` undo each other up to the mask. -/
theorem incrementAndDecrementWrap : Obligations.IncrementAndDecrementWrap := by
  intro k i hk hi m
  have hundo : decrement m (increment m i) = i := (decrement_increment hk i).trans (and_mask_of_lt hk hi)
  have hredo : increment m (decrement m i) = i := (increment_decrement hk i).trans (and_mask_of_lt hk hi)
  exact ⟨rfl, rfl, toNat_increment hk i, toNat_decrement hk i, hundo, hredo, toNat_and_mask_lt hk _,
    increment_entriesMask hk, decrement_zero m, by decide, by decide, by decide⟩

/-- Settles O10: the value modulo the capacity, and the corners up to the mask. -/
theorem addIndexIsModular : Obligations.AddIndexIsModular := by
  intro k i n hk hi m
  have hzero : addIndex m i 0#32 = i := (addIndex_zero m i).trans (and_mask_of_lt hk hi)
  have hcap : addIndex m i (BitVec.ofNat 32 (2 ^ k)) = i := (addIndex_capacity hk i).trans (and_mask_of_lt hk hi)
  exact ⟨rfl, toNat_addIndex hk i n, hzero, hcap, addIndex_allOnes m i, by decide⟩

/-- Settles O11: the value modulo the capacity (the formula's two capacities differ from the lemma's one by a multiple), and
the empty and the full ring. -/
theorem availableSlotsIsModular : Obligations.AvailableSlotsIsModular := by
  intro k w c hk hw _ m
  have hvalue : (availableSlots m w c).toNat = (c.toNat + 2 * 2 ^ k - 1 - w.toNat) % 2 ^ k := by
    have hsum : c.toNat + 2 * 2 ^ k - 1 - w.toNat = c.toNat + (2 ^ k - (w.toNat + 1)) + 2 ^ k := by omega
    rw [toNat_availableSlots hk hw, hsum, Nat.add_mod_right]
  have hempty : w = c → (availableSlots m w c).toNat = 2 ^ k - 1 := by
    rintro rfl
    rw [availableSlots_empty, toNat_entriesMask hk]
  exact ⟨rfl, hvalue, toNat_and_mask_le hk _, hempty, availableSlots_eq_zero_iff hk hw c, availableSlots_empty m 0#32,
    by decide⟩

/-- Settles O12: `availableSlots` complements `outstanding`, and moves by one with either index. -/
theorem availablePlusOutstandingIsFull : Obligations.AvailablePlusOutstandingIsFull := by
  intro k w c hk hw _ m
  have hround : (increment m)^[2 ^ k] w = w :=
    (iterate_increment hk hw _).trans ((addIndex_capacity hk w).trans (and_mask_of_lt hk hw))
  exact ⟨availableSlots_add_outstanding hk w c, hround, availableSlots_increment_write hk,
    availableSlots_increment_consumer hk⟩

end Sys2Proof.Machine
end

section
/-! The shape of a pipe operation that may run: it does its work on the state it was issued in and returns a status.
Taking the lock and leaving it again cannot be seen in the result, since no named update looks at the lock. -/

namespace Sys2Proof.Machine

section
variable {s t u : State} {id : Nat} {nl : Bool}

/-! ### Entering and leaving (R210, R211 (a)) -/

/-- An operation that entered leaves the lock as it found it: only the status is new. -/
theorem MayEnter.acquire_finish (h : MayEnter nl s) (st : Status) : s.acquire.finish nl st = s.returnStatus st := by
  obtain ⟨-, h⟩ := h
  cases nl with
  | true =>
    have howner : s.lockOwner = some s.port := by simpa using h
    rw [State.acquire_of_owner s howner]
    rfl
  | false =>
    have hfree : s.lockOwner = none := by simpa using h
    have hrelease : s.acquire.release = s := by cases s; simp_all [State.acquire, State.release]
    calc s.acquire.finish false st = s.acquire.release.returnStatus st := rfl
      _ = s.returnStatus st := by rw [hrelease]

theorem PipeReady.wf {p : PipeField} (h : PipeReady nl p s) {i : Instr} (hi : i.pipe? = some p) :
    i.wf s.nPipes = true := by
  obtain ⟨-, hid⟩ := h
  simpa [Instr.wf, hi] using hid

/-- A source-ring operation that may run does its work on the pipe's source ring, holding the lock (R198). -/
theorem SrcReady.locked_withSrc {p : PipeField} {r : SrcRing} (h : SrcReady nl p r s) {i : Instr}
    (hi : i.pipe? = some p) {legal : Bool} (hlegal : legal = true) (k : State → SrcRing → Outcome) :
    s.locked i nl legal (fun u => u.withSrc p.toNat (k u)) = k s.acquire r := by
  obtain ⟨hready, hphase, hsrc⟩ := h
  rw [State.locked_of_mayEnter s i nl legal _ (PipeReady.wf hready hi) hlegal hready.1]
  exact State.withSrc_of_active s.acquire _ _ r hphase hsrc

/-- A destination-ring operation that may run does its work on the pipe's destination ring, holding the lock (R198). -/
theorem DstReady.locked_withDst {p : PipeField} {r : Ring} (h : DstReady nl p r s) {i : Instr}
    (hi : i.pipe? = some p) {legal : Bool} (hlegal : legal = true) (k : State → Ring → Outcome) :
    s.locked i nl legal (fun u => u.withDst p.toNat (k u)) = k s.acquire r := by
  obtain ⟨hready, hphase, hdst⟩ := h
  rw [State.locked_of_mayEnter s i nl legal _ (PipeReady.wf hready hi) hlegal hready.1]
  exact State.withDst_of_active s.acquire _ _ r hphase hdst

/-! ### The running port after a return (R18, R109) -/

theorem State.returnStatus_cur (hport : s.port < s.nHosts) (st : Status) :
    (s.returnStatus st).cur = { s.cur with x0 := statusCode st } := State.setCur_cur s _ hport

/-- A 32-bit result in `x[3]` and the status are written to the running port alone. -/
theorem State.setX3_returnStatus (hport : s.port < s.nHosts) (v : Nat) (st : Status) :
    (s.setX3 v).returnStatus st = s.setCur { s.cur with x0 := statusCode st, x3 := v } := by
  have hcur : (s.setX3 v).cur = { s.cur with x3 := v } := State.setCur_cur s _ hport
  calc (s.setX3 v).returnStatus st = (s.setX3 v).setCur { s.cur with x3 := v, x0 := statusCode st } := by
        rw [State.returnStatus, hcur]
    _ = s.setCur { s.cur with x0 := statusCode st, x3 := v } := State.setCur_setCur _ _ _

/-! ### Frames of the named updates: everything but pipe `id`, the running port, memory and the outputs -/

theorem PipeFrame.refl (id : Nat) (s : State) : PipeFrame id s s :=
  ⟨⟨rfl, rfl, rfl, rfl, rfl⟩, ⟨rfl, rfl⟩, ⟨rfl, fun _ _ => rfl⟩, ⟨rfl, fun _ _ => rfl⟩⟩

theorem PipeFrame.trans (hst : PipeFrame id s t) (htu : PipeFrame id t u) : PipeFrame id s u := by
  obtain ⟨⟨hcfg, halive, hin, hport, hlock⟩, ⟨hallocs, hdraws⟩, ⟨hhosts, hports⟩, ⟨hpipes, hentries⟩⟩ := hst
  obtain ⟨⟨hcfg', halive', hin', hport', hlock'⟩, ⟨hallocs', hdraws'⟩, ⟨hhosts', hports'⟩, ⟨hpipes', hentries'⟩⟩ := htu
  exact ⟨⟨hcfg'.trans hcfg, halive'.trans halive, hin'.trans hin, hport'.trans hport, hlock'.trans hlock⟩,
    ⟨hallocs'.trans hallocs, hdraws'.trans hdraws⟩,
    ⟨hhosts'.trans hhosts, fun h hne => (hports' h (hport ▸ hne)).trans (hports h hne)⟩,
    ⟨hpipes'.trans hpipes, fun j hne => (hentries' j hne).trans (hentries j hne)⟩⟩

/-- What a frame leaves alone decides whether an operation may enter. -/
theorem PipeFrame.mayEnter (h : PipeFrame id s t) (hs : MayEnter nl s) : MayEnter nl t := by
  obtain ⟨⟨-, -, -, hport, hlock⟩, -, ⟨hhosts, -⟩, -⟩ := h
  rw [MayEnter, hport, hlock, hhosts]
  exact hs

theorem PipeFrame.emit (h : PipeFrame id s t) (e : Event) : PipeFrame id s (t.emit e) := h

theorem PipeFrame.warn (h : PipeFrame id s t) (k : WarnKind) (j : Nat) : PipeFrame id s (t.warn k j) := h

theorem PipeFrame.noteRead (h : PipeFrame id s t) (reg : RegId) : PipeFrame id s (t.noteRead reg) := h

theorem PipeFrame.memWrite (h : PipeFrame id s t) (a : Nat) (v : U32) : PipeFrame id s (t.memWrite a v) := h

theorem PipeFrame.writeDesc (h : PipeFrame id s t) (base i addr : U32) (len : U16) (flags : U32) :
    PipeFrame id s (t.writeDesc base i addr len flags) := h

theorem PipeFrame.updEntry (h : PipeFrame id s t) (f : PipeEntry → PipeEntry) : PipeFrame id s (t.updEntry id f) :=
  h.trans ⟨⟨rfl, rfl, rfl, rfl, rfl⟩, ⟨rfl, rfl⟩, ⟨rfl, fun _ _ => rfl⟩,
    ⟨State.updEntry_nPipes t id f, fun j hj => State.updEntry_entry_other t id j f hj⟩⟩

theorem PipeFrame.setSrc (h : PipeFrame id s t) (r : SrcRing) : PipeFrame id s (t.setSrc id r) := h.updEntry _

theorem PipeFrame.regWrite (h : PipeFrame id s t) (f : RegField) (v : U32) :
    PipeFrame id s (t.regWrite (.block id f) v) :=
  h.trans ⟨⟨rfl, rfl, rfl, rfl, rfl⟩, ⟨rfl, rfl⟩, ⟨rfl, fun _ _ => rfl⟩,
    ⟨State.regWrite_nPipes t _ v, fun j hj => State.regWrite_entry_other t id j f v hj⟩⟩

theorem PipeFrame.setCur (h : PipeFrame id s t) (p : Port) : PipeFrame id s (t.setCur p) :=
  h.trans ⟨⟨rfl, rfl, rfl, rfl, rfl⟩, ⟨rfl, rfl⟩,
    ⟨State.setCur_nHosts t p, fun k hk => State.setCur_portAt_other t p k hk⟩, ⟨rfl, fun _ _ => rfl⟩⟩

theorem PipeFrame.setX3 (h : PipeFrame id s t) (v : Nat) : PipeFrame id s (t.setX3 v) := h.setCur _

theorem PipeFrame.returnStatus (h : PipeFrame id s t) (st : Status) : PipeFrame id s (t.returnStatus st) := h.setCur _

/-! ### A descriptor in memory (R74, R100) -/

@[simp] theorem State.writeDesc_devAlive (s : State) (base i addr : U32) (len : U16) (flags : U32) :
    (s.writeDesc base i addr len flags).devAlive = s.devAlive := rfl

@[simp] theorem State.writeDesc_nPipes (s : State) (base i addr : U32) (len : U16) (flags : U32) :
    (s.writeDesc base i addr len flags).nPipes = s.nPipes := rfl

@[simp] theorem State.writeDesc_trace (s : State) (base i addr : U32) (len : U16) (flags : U32) :
    (s.writeDesc base i addr len flags).trace =
      .memWrite (descAddr base i + 8) flags :: .memWrite (descAddr base i + 4) (len.setWidth 32) ::
        .memWrite (descAddr base i) addr :: s.trace := rfl

theorem State.writeDesc_mem (s : State) (base i addr : U32) (len : U16) (flags : U32) :
    (s.writeDesc base i addr len flags).mem =
      Memory.write4 (Memory.write4 (Memory.write4 s.mem (descAddr base i) addr) (descAddr base i + 4) (len.setWidth 32))
        (descAddr base i + 8) flags := rfl

/-- The three fields are read back: the later stores share no byte with the earlier ones. -/
theorem State.writeDesc_fields (s : State) (base i addr : U32) (len : U16) (flags : U32) :
    Memory.read4 (s.writeDesc base i addr len flags).mem (descAddr base i) = addr ∧
    Memory.read4 (s.writeDesc base i addr len flags).mem (descAddr base i + 4) = len.setWidth 32 ∧
    Memory.read4 (s.writeDesc base i addr len flags).mem (descAddr base i + 8) = flags := by
  rw [State.writeDesc_mem]
  refine ⟨?_, ?_, Memory.read4_write4_same _ _ _⟩
  · rw [Memory.read4_write4_other _ _ _ _ (by omega), Memory.read4_write4_other _ _ _ _ (by omega),
      Memory.read4_write4_same]
  · rw [Memory.read4_write4_other _ _ _ _ (by omega), Memory.read4_write4_same]

theorem State.writeDesc_sameMemoryOutside (s : State) (base i addr : U32) (len : U16) (flags : U32) :
    SameMemoryOutside (descAddr base i) 12 s (s.writeDesc base i addr len flags) := by
  intro b hb
  rw [State.writeDesc_mem, Memory.read_write4_outside _ _ _ _ (by omega), Memory.read_write4_outside _ _ _ _ (by omega),
    Memory.read_write4_outside _ _ _ _ (by omega)]

/-! ### The publication of a source ring (R145) -/

theorem PipeFrame.publishSrc (h : PipeFrame id s t) (r : SrcRing) : PipeFrame id s (t.publishSrc id r) :=
  (h.emit .barrier).regWrite .srcWrIdx r.wr

@[simp] theorem State.publishSrc_trace (s : State) (id : Nat) (r : SrcRing) :
    (s.publishSrc id r).trace = .regWrite (s.regAddr (.block id .srcWrIdx)) r.wr :: .barrier :: s.trace := rfl

/-- The published write index reaches the register of a device that responds (R46). -/
theorem State.publishSrc_entry (hid : id < s.nPipes) (r : SrcRing) :
    (s.publishSrc id r).entry id = { s.entry id with
      cb := if s.devAlive = true then { (s.entry id).cb with srcWrIdx := r.wr } else (s.entry id).cb } := by
  unfold State.publishSrc
  rw [State.regWrite_entry]
  by_cases halive : s.devAlive = true
  · simp [halive, hid, PipeEntry.put, CtrlBlock.put, DeviceState.onWrite]
  · simp [halive]

end

end Sys2Proof.Machine
end

section
/-! The send path (spec/41_send_path.md R140 to R148): the slot queries, `send` and `revert_last_gather`. -/

namespace Sys2Proof.Machine

section
variable {s : State} {nl : Bool} {p : PipeField}

/-! ### The slot queries (R140, R160) -/

/-- A query reports from the state it entered in: the result, the status, and the lock as it was found. -/
theorem MayEnter.setX3_finish (h : MayEnter nl s) (v : Nat) (st : Status) :
    (s.acquire.setX3 v).finish nl st = s.setCur { s.cur with x0 := statusCode st, x3 := v } := by
  have hquery : MayEnter nl (s.setX3 v) := ((PipeFrame.refl 0 s).setX3 v).mayEnter h
  calc (s.acquire.setX3 v).finish nl st = (s.setX3 v).returnStatus st := hquery.acquire_finish st
    _ = _ := State.setX3_returnStatus h.1 v st

theorem exec_availableSendSlots {r : SrcRing} (h : SrcReady nl p r s) :
    exec (.availableSendSlots nl p) s =
      .next (s.setCur { s.cur with x0 := 0, x3 := (availableSlots r.mask r.wr r.sw).toNat }) := by
  have ⟨⟨henter, _⟩, _⟩ := h
  exact (SrcReady.locked_withSrc h rfl rfl _).trans (congrArg _ (henter.setX3_finish _ .ok))

theorem exec_availableRecvSlots {r : Ring} (h : DstReady nl p r s) :
    exec (.availableRecvSlots nl p) s =
      .next (s.setCur { s.cur with x0 := 0, x3 := (availableSlots r.mask r.wr r.sw).toNat }) := by
  have ⟨⟨henter, _⟩, _⟩ := h
  exact (DstReady.locked_withDst h rfl rfl _).trans (congrArg _ (henter.setX3_finish _ .ok))

/-- Settles O25: each query writes the free slots of its ring and the status to the running port. -/
theorem availableSlotQueriesOnlyReport : Obligations.AvailableSlotQueriesOnlyReport :=
  ⟨fun _ _ => rfl, fun _ _ => rfl, fun _ _ _ _ h => exec_availableSendSlots h,
    fun _ _ _ _ h => exec_availableRecvSlots h⟩

/-! ### `revert_last_gather` (R147) -/

/-- There is an enqueue to take back exactly when the write index is neither `sw_index` nor the masked register. -/
theorem State.canRevert_iff (s : State) (id : Nat) (r : SrcRing) :
    s.canRevert id r = true ↔ r.wr ≠ r.sw ∧ r.wr ≠ s.regRead (.block id .srcWrIdx) &&& r.mask := by
  simp [State.canRevert]

/-- The two answers of `revert_last_gather`, each after one read of the register. -/
theorem exec_revertLastGather {r : SrcRing} (h : SrcReady nl p r s) :
    exec (.revertLastGather nl p) s =
      if s.canRevert p.toNat r then
        .next (((s.noteRead (.block p.toNat .srcWrIdx)).setSrc p.toNat r.reverted).returnStatus .ok)
      else .next (((s.noteRead (.block p.toNat .srcWrIdx)).warn .nothingToRevert p.toNat).returnStatus .ok) := by
  have ⟨⟨henter, _⟩, _⟩ := h
  have hread := (PipeFrame.refl p.toNat s).noteRead (.block p.toNat .srcWrIdx)
  have hrevert := (hread.setSrc r.reverted).mayEnter henter
  have hwarn := (hread.warn .nothingToRevert p.toNat).mayEnter henter
  rw [← hrevert.acquire_finish, ← hwarn.acquire_finish]
  exact SrcReady.locked_withSrc h rfl rfl _

/-- Settles O24: both branches read the register once; only the one that takes an enqueue back writes the pipe. -/
theorem revertLastGatherTakesBackOne : Obligations.RevertLastGatherTakesBackOne := by
  refine ⟨fun _ _ => rfl, fun s nl p r h => ?_⟩
  intro id v wr
  have ⟨⟨⟨hport, _⟩, hid⟩, _⟩ := h
  rw [exec_revertLastGather h]
  constructor
  · intro hnone
    have hrev : ¬ s.canRevert id r = true := by
      rw [State.canRevert_iff]
      exact fun ⟨hsw, hreg⟩ => hnone.elim hsw hreg
    exact if_neg hrev
  · intro hsw hreg
    have hrev : s.canRevert id r = true := (State.canRevert_iff s id r).2 ⟨hsw, hreg⟩
    refine ⟨_, if_pos hrev, ?_, State.returnStatus_cur hport .ok, ?_, fun _ => rfl, rfl⟩
    · exact (((PipeFrame.refl id s).noteRead _).setSrc r.reverted).returnStatus .ok
    · exact (State.setSrc_entry _ id id r.reverted).trans (if_pos ⟨rfl, hid⟩)

/-! ### The warning of an oversized `send` (R143) -/

/-- The warning is an output and nothing else. -/
theorem State.warnOversized_eq (s : State) (id : Nat) :
    s.warnOversized id = { s with trace :=
      (if (s.pipe id).maxSendSize.toNat < s.cur.x3 then [.warn .oversizedSend s.port id] else []) ++ s.trace } := by
  unfold State.warnOversized
  split <;> rfl

theorem State.acquire_warnOversized (s : State) (id : Nat) :
    s.acquire.warnOversized id = (s.warnOversized id).acquire := by
  rw [State.warnOversized_eq, State.warnOversized_eq]
  rfl

theorem PipeFrame.warnOversized (id : Nat) (s : State) : PipeFrame id s (s.warnOversized id) := by
  rw [State.warnOversized_eq]
  exact PipeFrame.refl id s

/-! ### The enqueue (R141, R142, R145) -/

theorem flagsWord_eq (tid : TidField) (bs g : Bool) :
    flagsWord tid bs g = (tid ++ BitVec.ofBool bs ++ BitVec.ofBool g).setWidth 32 := by
  refine BitVec.eq_of_getLsbD_eq fun i hi => ?_
  simp only [flagsWord, bit, BitVec.getLsbD_setWidth, BitVec.getLsbD_append]
  match i with
  | 0 => simp
  | 1 => simp
  | i + 2 => simp [hi]

theorem State.acquire_enqueueSend (s : State) (id : Nat) (r : SrcRing) (g bs : Bool) (tid : TidField) :
    s.acquire.enqueueSend id r g bs tid = (s.enqueueSend id r g bs tid).acquire := by
  cases g <;> rfl

theorem PipeFrame.enqueueSend {s u : State} {id : Nat} (h : PipeFrame id s u) (r : SrcRing) (g bs : Bool)
    (tid : TidField) : PipeFrame id s (u.enqueueSend id r g bs tid) := by
  have hset := (h.writeDesc r.base r.wr (low32 u.cur.x2) (BitVec.ofNat 16 u.cur.x3) (flagsWord tid bs g)).setSrc
    { r with toRing := (r.toRing.setContext r.wr u.cur.x1).advanceWr }
  cases g with
  | true => exact hset
  | false => exact hset.publishSrc _

section
variable (u : State) (id : Nat) (r : SrcRing) (g bs : Bool) (tid : TidField)

theorem State.enqueueSend_cur : (u.enqueueSend id r g bs tid).cur = u.cur := by cases g <;> rfl

theorem State.enqueueSend_mem : (u.enqueueSend id r g bs tid).mem =
    (u.writeDesc r.base r.wr (low32 u.cur.x2) (BitVec.ofNat 16 u.cur.x3) (flagsWord tid bs g)).mem := by
  cases g <;> rfl

/-- The descriptor holds the address, the length and the flags that the operation was given (R142). -/
theorem State.enqueueSend_fields (hlen : u.cur.x3 < 2 ^ 16) :
    Memory.read4 (u.enqueueSend id r g bs tid).mem (descAddr r.base r.wr) = BitVec.ofNat 32 u.cur.x2 ∧
    Memory.read4 (u.enqueueSend id r g bs tid).mem (descAddr r.base r.wr + 4) = BitVec.ofNat 32 u.cur.x3 ∧
    Memory.read4 (u.enqueueSend id r g bs tid).mem (descAddr r.base r.wr + 8) =
      (tid ++ BitVec.ofBool bs ++ BitVec.ofBool g).setWidth 32 := by
  have hfields := State.writeDesc_fields u r.base r.wr (low32 u.cur.x2) (BitVec.ofNat 16 u.cur.x3) (flagsWord tid bs g)
  rw [BitVec.setWidth_ofNat_of_le_of_lt (by decide) hlen] at hfields
  rw [State.enqueueSend_mem, ← flagsWord_eq]
  exact hfields

theorem State.enqueueSend_sameMemoryOutside :
    SameMemoryOutside (descAddr r.base r.wr) 12 u (u.enqueueSend id r g bs tid) := by
  rw [SameMemoryOutside, State.enqueueSend_mem]
  exact State.writeDesc_sameMemoryOutside u r.base r.wr _ _ _

/-- The descriptor is written first; an enqueue without gather then passes the barrier and writes the register. -/
theorem State.enqueueSend_trace (hlen : u.cur.x3 < 2 ^ 16) : (u.enqueueSend id r g bs tid).trace =
    (if g then [] else [.regWrite (u.regAddr (.block id .srcWrIdx)) (increment r.mask r.wr), .barrier]) ++
      [.memWrite (descAddr r.base r.wr + 8) ((tid ++ BitVec.ofBool bs ++ BitVec.ofBool g).setWidth 32),
        .memWrite (descAddr r.base r.wr + 4) (BitVec.ofNat 32 u.cur.x3),
        .memWrite (descAddr r.base r.wr) (BitVec.ofNat 32 u.cur.x2)] ++ u.trace := by
  rw [← flagsWord_eq, ← BitVec.setWidth_ofNat_of_le_of_lt (by decide) hlen]
  cases g <;> rfl

/-- The ring takes the context and advances; only an enqueue without gather reaches the register, of a live device. -/
theorem State.enqueueSend_entry (hid : id < u.nPipes) : (u.enqueueSend id r g bs tid).entry id = { u.entry id with
    pipe := { u.pipe id with
      src := some { r with wr := increment r.mask r.wr, ctx := sparseSet r.ctx r.wr.toNat u.cur.x1 } }
    cb := if g = false ∧ u.devAlive = true then { (u.entry id).cb with srcWrIdx := increment r.mask r.wr }
      else (u.entry id).cb } := by
  have hset := State.setSrc_entry
    (u.writeDesc r.base r.wr (low32 u.cur.x2) (BitVec.ofNat 16 u.cur.x3) (flagsWord tid bs g)) id id
    { r with toRing := (r.toRing.setContext r.wr u.cur.x1).advanceWr }
  rw [if_pos ⟨rfl, hid⟩] at hset
  cases g with
  | true => exact hset
  | false =>
    refine (State.publishSrc_entry (by simpa using hid) _).trans ?_
    rw [hset]
    simp only [State.setSrc_devAlive, State.writeDesc_devAlive, true_and]
    rfl

end

/-! ### `send` (R141 to R146) -/

/-- The three answers of `send` on a ring that may be used: refused, full, enqueued (R141, R146). -/
theorem exec_send {r : SrcRing} (h : SrcReady nl p r s) (hops : sendOperandsOk s.cur = true) (g bs : Bool)
    (tid : TidField) :
    exec (.send nl p g bs tid) s =
      if 2 ^ 16 ≤ s.cur.x3 then .refused .lengthTooWide
      else if availableSlots r.mask r.wr r.sw = 0#32 then
        .next ((s.warnOversized p.toNat).returnStatus .outOfResources)
      else s.withSlot r.base r.wr
        (.next (((s.warnOversized p.toNat).enqueueSend p.toNat r g bs tid).returnStatus .ok)) := by
  have ⟨⟨henter, _⟩, _⟩ := h
  have hwarn := (PipeFrame.warnOversized p.toNat s).mayEnter henter
  have henqueue := (PipeFrame.refl p.toNat _).enqueueSend r g bs tid |>.mayEnter hwarn
  rw [← hwarn.acquire_finish, ← henqueue.acquire_finish, ← State.acquire_enqueueSend, ← State.acquire_warnOversized]
  exact SrcReady.locked_withSrc h rfl hops _

/-- Settles O23: the three answers of `send`; the enqueue's memory, entry and outputs are those of its named updates. -/
theorem sendEnqueuesOneDescriptor : Obligations.SendEnqueuesOneDescriptor := by
  refine ⟨fun _ _ _ _ _ => rfl, fun s nl p g bs tid r h hops => ?_⟩
  intro id wr flags warning
  have ⟨⟨henter, hid⟩, _⟩ := h
  rw [exec_send h hops, State.warnOversized_eq]
  refine ⟨fun hwide => if_pos hwide, fun hlen hfull => ?_, fun hlen hfree hslot => ?_⟩
  · rw [if_neg (not_le.2 hlen), if_pos hfull]
    rfl
  · rw [if_neg (not_le.2 hlen), if_neg hfree, State.withSlot_of_inSpace _ _ _ _ hslot]
    have hwarned : PipeFrame id s { s with trace := warning ++ s.trace } := PipeFrame.refl id s
    have hshort : ({ s with trace := warning ++ s.trace } : State).cur.x3 < 2 ^ 16 := hlen
    have hframe := hwarned.enqueueSend r g bs tid
    have hcur := State.returnStatus_cur (hframe.mayEnter henter).1 .ok
    rw [State.enqueueSend_cur] at hcur
    obtain ⟨haddr, hlength, hflags⟩ := State.enqueueSend_fields _ id r g bs tid hshort
    exact ⟨_, rfl, hframe.returnStatus .ok, hcur, State.enqueueSend_entry _ id r g bs tid hid, haddr, hlength, hflags,
      State.enqueueSend_sameMemoryOutside _ id r g bs tid,
      (State.enqueueSend_trace _ id r g bs tid hshort).trans (List.append_assoc _ _ _).symm⟩

end

end Sys2Proof.Machine
end

section
/-! Send completion (spec/42_send_completion.md R150 to R154): `completed_send_next` and `cancel_send_next`. Both free
the slot at `sw_index` and hand out what it held; they differ in what tells them that there is one to hand out. -/

namespace Sys2Proof.Machine

section
variable {s t : State} {nl : Bool} {p : PipeField} {id : Nat}

/-! ### Results written to the running port (R109) -/

/-- A context in `x[1]` and the status are written to the running port alone. -/
theorem State.setX1_returnStatus (hport : s.port < s.nHosts) (v : Nat) (st : Status) :
    (s.setX1 v).returnStatus st = s.setCur { s.cur with x0 := statusCode st, x1 := v } := by
  simp only [State.setX1, State.returnStatus, State.setCur_cur s _ hport, State.setCur_setCur]

/-- The length field of R103 is bits 15:0 of the length word. -/
theorem Memory.descLen_eq (m : Memory) (base i : U32) :
    Memory.descLen m base i = (Memory.read4 m (descAddr base i + 4)).extractLsb' 0 16 :=
  BitVec.eq_of_toNat_eq (by simp [Memory.descLen, lenWordAt])

/-- The running port after a drain: the status and the four results of R153, all from the slot at `sw_index`. -/
theorem State.setDrained_returnStatus (hport : s.port < s.nHosts) (r : SrcRing) (m : Memory) (st : Status) :
    (s.setDrained r m).returnStatus st = s.setCur { s.cur with
      x0 := statusCode st
      x1 := (sparseGet r.ctx r.sw.toNat).getD 0
      x2 := (Memory.read4 m (descAddr r.base r.sw)).toNat
      x3 := ((Memory.read4 m (descAddr r.base r.sw + 4)).extractLsb' 0 16).toNat
      x4 := ((Memory.read4 m (descAddr r.base r.sw + 8)).extractLsb' 2 14).toNat } := by
  simp only [State.setDrained, State.setX1, State.setX2, State.setX3, State.setX4, State.returnStatus,
    State.setCur_cur s _ hport, State.setCur_setCur, Memory.descLen_eq]
  rfl

theorem PipeFrame.setX1 (h : PipeFrame id s t) (v : Nat) : PipeFrame id s (t.setX1 v) := h.setCur _

theorem PipeFrame.setDrained (h : PipeFrame id s t) (r : SrcRing) (m : Memory) : PipeFrame id s (t.setDrained r m) :=
  (((h.setCur _).setCur _).setCur _).setCur _

theorem PipeFrame.nPipes (h : PipeFrame id s t) : t.nPipes = s.nPipes := by
  obtain ⟨-, -, -, hpipes, -⟩ := h
  exact hpipes

/-- Which slots exist is a matter of the configuration. -/
theorem PipeFrame.withSlot (h : PipeFrame id s t) (base i : U32) (k : Outcome) :
    t.withSlot base i k = s.withSlot base i k := by
  obtain ⟨⟨hcfg, -⟩, -⟩ := h
  rw [State.withSlot, State.slotInSpace, State.inSpace, hcfg]
  rfl

/-! ### The slot at `sw_index` freed (R152 (c), R153) -/

theorem PipeFrame.freeSrcSlot (h : PipeFrame id s t) (r : SrcRing) : PipeFrame id s (t.freeSrcSlot id r) :=
  (h.memWrite (lenWordAt r.base r.sw) 0#32).setSrc _

/-- The context of the slot is cleared and `sw_index` advances. -/
theorem State.freeSrcSlot_entry (hid : id < s.nPipes) (r : SrcRing) : (s.freeSrcSlot id r).entry id = { s.entry id with
    pipe := { s.pipe id with
      src := some { r with sw := increment r.mask r.sw, ctx := sparseErase r.ctx r.sw.toNat } } } :=
  (State.setSrc_entry (s.clearLen r.base r.sw) id id _).trans (if_pos ⟨rfl, hid⟩)

theorem State.freeSrcSlot_lenWord (s : State) (id : Nat) (r : SrcRing) :
    Memory.read4 (s.freeSrcSlot id r).mem (descAddr r.base r.sw + 4) = 0#32 :=
  Memory.read4_write4_same s.mem (lenWordAt r.base r.sw) 0#32

theorem State.freeSrcSlot_sameMemoryOutside (s : State) (id : Nat) (r : SrcRing) :
    SameMemoryOutside (descAddr r.base r.sw + 4) 4 s (s.freeSrcSlot id r) :=
  fun b hb => Memory.read_write4_outside s.mem (lenWordAt r.base r.sw) b 0#32 hb

@[simp] theorem State.freeSrcSlot_trace (s : State) (id : Nat) (r : SrcRing) :
    (s.freeSrcSlot id r).trace = .memWrite (descAddr r.base r.sw + 4) 0#32 :: s.trace := rfl

/-! ### The lazy refresh (R150, R151) -/

/-- The ring after a lazy refresh that the device answers: where the cache is used up, the cached
index is the masked register. -/
def State.refreshedSrc (s : State) (id : Nat) (r : SrcRing) : SrcRing :=
  { r with hw := if r.hw = r.sw then s.regRead (.block id .srcRdIdx) &&& r.mask else r.hw }

/-- The state after a lazy refresh that the device answers. -/
def State.refreshed (s : State) (id : Nat) (r : SrcRing) : State :=
  if r.hw = r.sw then (s.noteRead (.block id .srcRdIdx)).setSrc id (s.refreshedSrc id r) else s

section
variable {r : SrcRing}

theorem State.refreshedSrc_eq_self (hsame : (s.refreshedSrc id r).hw = r.hw) : s.refreshedSrc id r = r :=
  congrArg (fun hw => { r with hw := hw }) hsame

theorem State.lazyRefresh_of_allOnes (hcache : r.hw = r.sw) (hones : s.regRead (.block id .srcRdIdx) = allOnes) :
    s.lazyRefresh id r = .unsupported (s.noteRead (.block id .srcRdIdx)) := by
  obtain ⟨hne, -⟩ | ⟨-, -, e⟩ | ⟨-, hne, -⟩ := State.lazyRefresh_cases s id r
  · exact absurd hcache hne
  · exact e
  · exact absurd hones hne

theorem State.lazyRefresh_of_answer (hanswer : r.hw = r.sw → s.regRead (.block id .srcRdIdx) ≠ allOnes) :
    s.lazyRefresh id r = .ready (s.refreshed id r) (s.refreshedSrc id r) := by
  unfold State.refreshed State.refreshedSrc
  obtain ⟨hne, e⟩ | ⟨hcache, hones, -⟩ | ⟨hcache, -, e⟩ := State.lazyRefresh_cases s id r
  · rw [e, if_neg hne, if_neg hne]
  · exact absurd hones (hanswer hcache)
  · rw [e, if_pos hcache, if_pos hcache]

theorem PipeFrame.refreshed (h : PipeFrame id s t) (r : SrcRing) : PipeFrame id s (t.refreshed id r) := by
  unfold State.refreshed
  split
  · exact (h.noteRead _).setSrc _
  · exact h

theorem State.acquire_refreshed (s : State) (id : Nat) (r : SrcRing) :
    s.acquire.refreshed id r = (s.refreshed id r).acquire := by
  unfold State.refreshed
  split <;> rfl

theorem State.refreshed_cur (s : State) (id : Nat) (r : SrcRing) : (s.refreshed id r).cur = s.cur := by
  unfold State.refreshed
  split <;> rfl

theorem State.refreshed_mem (s : State) (id : Nat) (r : SrcRing) : (s.refreshed id r).mem = s.mem := by
  unfold State.refreshed
  split <;> rfl

/-- The register is read exactly when the cache equals `sw_index`. -/
theorem State.refreshed_trace (s : State) (id : Nat) (r : SrcRing) : (s.refreshed id r).trace =
    (if r.hw = r.sw then [.regRead (s.regAddr (.block id .srcRdIdx)) (s.regRead (.block id .srcRdIdx))] else []) ++
      s.trace := by
  unfold State.refreshed
  split <;> rfl

/-- The refresh writes nothing of the pipe but the cached index of its ring. -/
theorem State.refreshed_entry (hsrc : (s.pipe id).src = some r) : (s.refreshed id r).entry id =
    { s.entry id with pipe := { s.pipe id with src := some (s.refreshedSrc id r) } } := by
  unfold State.refreshed
  split
  · exact (State.setSrc_entry _ id id _).trans (if_pos ⟨rfl, State.lt_nPipes_of_src hsrc⟩)
  · next hne => rw [State.refreshedSrc, if_neg hne, ← hsrc]; rfl

end

/-! ### `completed_send_next` (R150 to R152) -/

theorem exec_completedSendNext_of_allOnes {r : SrcRing} (h : SrcReady nl p r s) (hcache : r.hw = r.sw)
    (hones : s.regRead (.block p.toNat .srcRdIdx) = allOnes) :
    exec (.completedSendNext nl p) s =
      .next ((s.noteRead (.block p.toNat .srcRdIdx)).returnStatus .unsupported) := by
  have ⟨⟨henter, _⟩, _⟩ := h
  have hread := ((PipeFrame.refl p.toNat s).noteRead (.block p.toNat .srcRdIdx)).mayEnter henter
  refine (SrcReady.locked_withSrc h rfl rfl _).trans ?_
  rw [State.lazyRefresh_of_allOnes (s := s.acquire) hcache hones, ← hread.acquire_finish]
  rfl

/-- Where the refresh is answered, or not needed: the refreshed cache says whether a completion is handed out. -/
theorem exec_completedSendNext_of_answer {r : SrcRing} (h : SrcReady nl p r s)
    (hanswer : r.hw = r.sw → s.regRead (.block p.toNat .srcRdIdx) ≠ allOnes) :
    exec (.completedSendNext nl p) s =
      if (s.refreshedSrc p.toNat r).hw = r.sw then .next ((s.refreshed p.toNat r).returnStatus .notReady)
      else s.withSlot r.base r.sw
        (.next ((((s.refreshed p.toNat r).freeSrcSlot p.toNat (s.refreshedSrc p.toNat r)).setX1
          (contextResult (r.context r.sw))).returnStatus .ok)) := by
  have ⟨⟨henter, _⟩, _⟩ := h
  have hframe := (PipeFrame.refl p.toNat s).refreshed r
  have hfree := ((hframe.freeSrcSlot (s.refreshedSrc p.toNat r)).setX1
    (contextResult (r.context r.sw))).mayEnter henter
  refine (SrcReady.locked_withSrc h rfl rfl _).trans ?_
  rw [State.lazyRefresh_of_answer (s := s.acquire) hanswer, State.acquire_refreshed, ← hfree.acquire_finish,
    ← (hframe.mayEnter henter).acquire_finish, ← hframe.withSlot]
  rfl

/-- Settles O27: an all-ones register ends the operation before the ring is touched; an unmoved one refreshes the cached
index to the value it had. -/
theorem completedSendNextReportsNothing : Obligations.CompletedSendNextReportsNothing := by
  intro s nl p r h hcache id v hnothing
  have ⟨⟨henter, _⟩, _, (hsrc : (s.pipe id).src = some r)⟩ := h
  have ⟨hport, _⟩ := henter
  by_cases hones : v = 0xFFFFFFFF#32
  · rw [exec_completedSendNext_of_allOnes h hcache hones]
    refine ⟨_, rfl, ((PipeFrame.refl id s).noteRead _).returnStatus _, rfl, ?_, fun _ => rfl, rfl⟩
    exact (State.returnStatus_cur hport .unsupported).trans (by rw [if_pos hones]; rfl)
  · have hhw : (s.refreshedSrc id r).hw = r.sw := (if_pos hcache).trans (hnothing.resolve_left hones)
    rw [exec_completedSendNext_of_answer h fun _ => hones, if_pos hhw]
    have hframe := (PipeFrame.refl id s).refreshed r
    obtain ⟨hport, -⟩ := hframe.mayEnter henter
    refine ⟨_, rfl, hframe.returnStatus .notReady, ?_, ?_, ?_, ?_⟩
    · refine (State.refreshed_entry hsrc).trans ?_
      rw [State.refreshedSrc_eq_self (hhw.trans hcache.symm), ← hsrc]
      rfl
    · rw [State.returnStatus_cur hport, State.refreshed_cur, if_neg hones]
      rfl
    · intro b
      exact congrArg (Memory.read · b) (State.refreshed_mem s id r)
    · exact (State.refreshed_trace s id r).trans (by rw [if_pos hcache]; rfl)

/-- Settles O26: the slot is freed in the refreshed state, whose ring is the pipe's with the new cached index. -/
theorem completedSendNextHandsOutOldest : Obligations.CompletedSendNextHandsOutOldest := by
  refine ⟨fun _ _ => rfl, fun s nl p r h hslot => ?_⟩
  intro id v hw hanswer hpending
  have ⟨⟨henter, hid⟩, _, (hsrc : (s.pipe id).src = some r)⟩ := h
  have hnew : (s.refreshedSrc id r).hw ≠ r.sw := hpending
  have hread := (PipeFrame.refl id s).refreshed r
  have hpipes : id < (s.refreshed id r).nPipes := hread.nPipes ▸ hid
  have hframe := hread.freeSrcSlot (s.refreshedSrc id r)
  obtain ⟨hport, -⟩ := hframe.mayEnter henter
  rw [exec_completedSendNext_of_answer h hanswer, if_neg hnew, State.withSlot_of_inSpace _ _ _ _ hslot,
    State.setX1_returnStatus hport]
  refine ⟨_, rfl, hframe.setCur _, ?_, ?_, State.freeSrcSlot_lenWord _ id (s.refreshedSrc id r), ?_, ?_⟩
  · rw [State.setCur_cur _ _ hport, State.freeSrcSlot_cur, State.refreshed_cur]
    rfl
  · refine (State.freeSrcSlot_entry hpipes (s.refreshedSrc id r)).trans ?_
    rw [State.pipe, State.refreshed_entry hsrc]
    rfl
  · intro b hb
    refine (State.freeSrcSlot_sameMemoryOutside _ id (s.refreshedSrc id r) b hb).trans ?_
    rw [State.refreshed_mem]
  · exact (State.freeSrcSlot_trace _ id _).trans (congrArg _ (State.refreshed_trace s id r))

/-! ### `cancel_send_next` (R153) -/

/-- The two answers of `cancel_send_next`: only the ring's own indices tell whether there is a send to drain. -/
theorem exec_cancelSendNext {r : SrcRing} (h : SrcReady nl p r s) :
    exec (.cancelSendNext nl p) s =
      if r.wr = r.sw then .next (s.returnStatus .noData)
      else s.withSlot r.base r.sw
        (.next (((s.freeSrcSlot p.toNat r).setDrained r s.mem).returnStatus .ok)) := by
  have ⟨⟨henter, _⟩, _⟩ := h
  have hdrain := (((PipeFrame.refl p.toNat s).freeSrcSlot r).setDrained r s.mem).mayEnter henter
  rw [← henter.acquire_finish, ← hdrain.acquire_finish]
  exact SrcReady.locked_withSrc h rfl rfl _

/-- Settles O28: the slot is freed and its results come from memory as it was before. -/
theorem cancelSendNextDrainsOldest : Obligations.CancelSendNextDrainsOldest := by
  refine ⟨fun _ _ => rfl, fun s nl p r h => ?_⟩
  intro id
  have ⟨⟨henter, hid⟩, _⟩ := h
  rw [exec_cancelSendNext h]
  refine ⟨fun hempty => if_pos hempty, fun hpending hslot => ?_⟩
  have hframe := (PipeFrame.refl id s).freeSrcSlot r
  obtain ⟨hport, -⟩ := hframe.mayEnter henter
  rw [if_neg hpending, State.withSlot_of_inSpace _ _ _ _ hslot, State.setDrained_returnStatus hport]
  exact ⟨_, rfl, hframe.setCur _, State.setCur_cur _ _ hport, State.freeSrcSlot_entry hid r,
    State.freeSrcSlot_lenWord s id r, State.freeSrcSlot_sameMemoryOutside s id r, State.freeSrcSlot_trace s id r⟩

end

end Sys2Proof.Machine
end

section
/-! The receive posts (spec/43_receive_post.md R161 to R165): `rx_post_buf` and `rx_update_write_idx`. Both store a
destination ring with a new write index and publish that index (R163); the guard of `rx_update_write_idx` cuts an advance
off at the free slots, so it never uses up the reserved slot (R165). -/

namespace Sys2Proof.Machine

section
variable {s t : State} {nl : Bool} {p : PipeField} {id : Nat}

/-! ### A destination ring stored and published (R163) -/

/-- A destination ring with a new write index: stored, then published. -/
def State.storeDst (s : State) (id : Nat) (r : Ring) : State := (s.setDst id r).publishDst id r

theorem PipeFrame.setDst (h : PipeFrame id s t) (r : Ring) : PipeFrame id s (t.setDst id r) := h.updEntry _

theorem PipeFrame.publishDst (h : PipeFrame id s t) (r : Ring) : PipeFrame id s (t.publishDst id r) :=
  (h.emit .barrier).regWrite .dstWrIdx r.wr

theorem PipeFrame.storeDst (h : PipeFrame id s t) (r : Ring) : PipeFrame id s (t.storeDst id r) :=
  (h.setDst r).publishDst r

@[simp] theorem State.publishDst_cur (s : State) (id : Nat) (r : Ring) : (s.publishDst id r).cur = s.cur := rfl

@[simp] theorem State.publishDst_mem (s : State) (id : Nat) (r : Ring) : (s.publishDst id r).mem = s.mem := rfl

@[simp] theorem State.publishDst_trace (s : State) (id : Nat) (r : Ring) :
    (s.publishDst id r).trace = .regWrite (s.regAddr (.block id .dstWrIdx)) r.wr :: .barrier :: s.trace := rfl

@[simp] theorem State.storeDst_cur (s : State) (id : Nat) (r : Ring) : (s.storeDst id r).cur = s.cur :=
  (State.publishDst_cur _ id r).trans (State.setDst_cur s id r)

@[simp] theorem State.storeDst_mem (s : State) (id : Nat) (r : Ring) : (s.storeDst id r).mem = s.mem :=
  (State.publishDst_mem _ id r).trans (State.setDst_mem s id r)

@[simp] theorem State.storeDst_trace (s : State) (id : Nat) (r : Ring) :
    (s.storeDst id r).trace = .regWrite (s.regAddr (.block id .dstWrIdx)) r.wr :: .barrier :: s.trace :=
  State.publishDst_trace (s.setDst id r) id r

/-- The lock is not looked at. -/
theorem State.acquire_storeDst (s : State) (id : Nat) (r : Ring) :
    s.acquire.storeDst id r = (s.storeDst id r).acquire := rfl

/-- The ring is stored; its write index reaches the register of a device that responds (R46). -/
theorem State.storeDst_entry (hid : id < s.nPipes) (r : Ring) :
    (s.storeDst id r).entry id = { s.entry id with
      pipe := { s.pipe id with dst := some r }
      cb := if s.devAlive = true then { (s.entry id).cb with dstWrIdx := r.wr } else (s.entry id).cb } := by
  have hset := (State.setDst_entry s id id r).trans (if_pos ⟨rfl, hid⟩)
  unfold State.storeDst State.publishDst
  rw [State.regWrite_entry]
  by_cases halive : s.devAlive = true
  · rw [if_pos ⟨rfl, (State.setDst_nPipes s id r).symm ▸ hid, halive⟩, if_pos halive]
    exact congrArg (PipeEntry.put · r.wr .dstWrIdx) hset
  · rw [if_neg fun ⟨_, _, h⟩ => halive h, if_neg halive]
    exact hset

/-! ### `rx_post_buf` (R161 to R163) -/

@[simp] theorem State.writeDesc_entry (s : State) (base i addr : U32) (len : U16) (flags : U32) (j : Nat) :
    (s.writeDesc base i addr len flags).entry j = s.entry j := rfl

@[simp] theorem State.writeDesc_pipe (s : State) (base i addr : U32) (len : U16) (flags : U32) (j : Nat) :
    (s.writeDesc base i addr len flags).pipe j = s.pipe j := rfl

@[simp] theorem State.writeDesc_cur (s : State) (base i addr : U32) (len : U16) (flags : U32) :
    (s.writeDesc base i addr len flags).cur = s.cur := rfl

section
variable (s : State) (id : Nat) (r : Ring)

/-- A post writes the descriptor at the write index, then stores and publishes the ring past it. -/
theorem State.postBuffer_eq : s.postBuffer id r =
    (s.writeDesc r.base r.wr (low32 s.cur.x2) 0#16 0#32).storeDst id
      { r with wr := increment r.mask r.wr, ctx := sparseSet r.ctx r.wr.toNat s.cur.x1 } := rfl

theorem State.acquire_postBuffer : s.acquire.postBuffer id r = (s.postBuffer id r).acquire := by
  rw [State.postBuffer_eq, State.postBuffer_eq, ← State.acquire_storeDst]
  rfl

theorem PipeFrame.postBuffer : PipeFrame id s (s.postBuffer id r) := by
  rw [State.postBuffer_eq]
  exact ((PipeFrame.refl id s).writeDesc _ _ _ _ _).storeDst _

theorem State.postBuffer_cur : (s.postBuffer id r).cur = s.cur := by
  rw [State.postBuffer_eq, State.storeDst_cur, State.writeDesc_cur]

theorem State.postBuffer_mem : (s.postBuffer id r).mem =
    (s.writeDesc r.base r.wr (low32 s.cur.x2) 0#16 0#32).mem := by
  rw [State.postBuffer_eq, State.storeDst_mem]

/-- The descriptor holds the buffer's address, length 0 and flags 0. -/
theorem State.postBuffer_fields :
    Memory.read4 (s.postBuffer id r).mem (descAddr r.base r.wr) = BitVec.ofNat 32 s.cur.x2 ∧
    Memory.read4 (s.postBuffer id r).mem (descAddr r.base r.wr + 4) = 0#32 ∧
    Memory.read4 (s.postBuffer id r).mem (descAddr r.base r.wr + 8) = 0#32 := by
  rw [State.postBuffer_mem]
  exact State.writeDesc_fields s r.base r.wr (low32 s.cur.x2) 0#16 0#32

theorem State.postBuffer_sameMemoryOutside :
    SameMemoryOutside (descAddr r.base r.wr) 12 s (s.postBuffer id r) := by
  rw [SameMemoryOutside, State.postBuffer_mem]
  exact State.writeDesc_sameMemoryOutside s r.base r.wr _ _ _

/-- The descriptor is written first, then the barrier is passed and the register written (R80). -/
theorem State.postBuffer_trace : (s.postBuffer id r).trace =
    .regWrite (s.regAddr (.block id .dstWrIdx)) (increment r.mask r.wr) :: .barrier ::
      .memWrite (descAddr r.base r.wr + 8) 0#32 :: .memWrite (descAddr r.base r.wr + 4) 0#32 ::
      .memWrite (descAddr r.base r.wr) (BitVec.ofNat 32 s.cur.x2) :: s.trace := by
  rw [State.postBuffer_eq, State.storeDst_trace, State.writeDesc_trace]
  rfl

/-- The ring takes the context and advances; the new write index reaches the register of a live device. -/
theorem State.postBuffer_entry (hid : id < s.nPipes) : (s.postBuffer id r).entry id = { s.entry id with
    pipe := { s.pipe id with
      dst := some { r with wr := increment r.mask r.wr, ctx := sparseSet r.ctx r.wr.toNat s.cur.x1 } }
    cb := if s.devAlive = true then { (s.entry id).cb with dstWrIdx := increment r.mask r.wr }
      else (s.entry id).cb } := by
  have hpipes : id < (s.writeDesc r.base r.wr (low32 s.cur.x2) 0#16 0#32).nPipes := by rwa [State.writeDesc_nPipes]
  rw [State.postBuffer_eq, State.storeDst_entry hpipes, State.writeDesc_entry, State.writeDesc_pipe,
    State.writeDesc_devAlive]

end

/-- The two answers of `rx_post_buf`: only a full ring of a pipe that does not reuse contexts takes no buffer (R162). -/
theorem exec_rxPostBuf {r : Ring} (h : DstReady nl p r s) (hops : postOperandsOk s.cur = true) :
    exec (.rxPostBuf nl p) s =
      if availableSlots r.mask r.wr r.sw = 0#32 ∧ (s.pipe p.toNat).reusesReceiveContext = false then
        .next (s.returnStatus .outOfSpace)
      else s.withSlot r.base r.wr (.next ((s.postBuffer p.toNat r).returnStatus .ok)) := by
  have ⟨⟨henter, _⟩, _⟩ := h
  have hpost := (PipeFrame.postBuffer s p.toNat r).mayEnter henter
  rw [← henter.acquire_finish, ← hpost.acquire_finish, ← State.acquire_postBuffer]
  exact DstReady.locked_withDst h rfl hops _

/-- Settles O30: the two answers of `rx_post_buf`; the post's memory, entry and outputs are those of its named updates. -/
theorem rxPostBufPostsAndPublishes : Obligations.RxPostBufPostsAndPublishes := by
  refine ⟨fun _ _ => rfl, fun s nl p r h hops => ?_⟩
  intro id wr
  have ⟨⟨henter, hid⟩, _⟩ := h
  rw [exec_rxPostBuf h hops]
  refine ⟨fun hfull hkeeps => if_pos ⟨hfull, hkeeps⟩, fun hroom hslot => ?_⟩
  have htakes : ¬ (availableSlots r.mask r.wr r.sw = 0#32 ∧ (s.pipe id).reusesReceiveContext = false) :=
    fun ⟨hfull, hkeeps⟩ => hroom.elim (· hfull) (by simp [hkeeps])
  rw [if_neg htakes, State.withSlot_of_inSpace _ _ _ _ hslot]
  have hframe := PipeFrame.postBuffer s id r
  have hcur := State.returnStatus_cur (hframe.mayEnter henter).1 .ok
  rw [State.postBuffer_cur] at hcur
  obtain ⟨haddr, hlen, hflags⟩ := State.postBuffer_fields s id r
  exact ⟨_, rfl, hframe.returnStatus .ok, hcur, State.postBuffer_entry s id r hid, haddr, hlen, hflags,
    State.postBuffer_sameMemoryOutside s id r, State.postBuffer_trace s id r⟩

/-! ### `rx_update_write_idx` (R164) -/

/-- The ring after `rx_update_write_idx`: the write index alone moves, by the guarded advance. -/
def Ring.advanced (r : Ring) (n : U32) : Ring := { r with wr := addIndex r.mask r.wr (guardedAdvance r n) }

/-- The two answers of `rx_update_write_idx`. -/
theorem exec_rxUpdateWriteIdx {r : Ring} (h : DstReady nl p r s) (hops : countOperandOk s.cur = true) :
    exec (.rxUpdateWriteIdx nl p) s =
      if low32 s.cur.x3 = 0#32 then .refused .zeroAdvance
      else .next ((s.storeDst p.toNat (r.advanced (low32 s.cur.x3))).returnStatus .ok) := by
  have ⟨⟨henter, _⟩, _⟩ := h
  have hmoved := ((PipeFrame.refl p.toNat s).storeDst (r.advanced (low32 s.cur.x3))).mayEnter henter
  rw [← hmoved.acquire_finish, ← State.acquire_storeDst]
  exact DstReady.locked_withDst h rfl hops _

/-- Settles O31: an advance that is not refused stores the ring with the moved write index and publishes it. -/
theorem rxUpdateWriteIdxAdvances : Obligations.RxUpdateWriteIdxAdvances := by
  refine ⟨fun _ _ => rfl, fun s nl p r h hops => ?_⟩
  intro id n m wr
  have ⟨⟨henter, hid⟩, _⟩ := h
  rw [exec_rxUpdateWriteIdx h hops]
  refine ⟨fun hzero => if_pos hzero, fun hpos => ?_⟩
  have hframe := (PipeFrame.refl id s).storeDst (r.advanced n)
  have hcur := State.returnStatus_cur (hframe.mayEnter henter).1 .ok
  rw [State.storeDst_cur] at hcur
  exact ⟨_, if_neg hpos, hframe.returnStatus .ok, hcur, State.storeDst_entry hid (r.advanced n),
    fun b => congrArg (Memory.read · b) (State.storeDst_mem s id (r.advanced n)),
    State.storeDst_trace s id (r.advanced n)⟩

/-! ### The reserved slot (R29, R165) -/

/-- A sound ring's mask is that of a power of two (R27, R28). -/
theorem Ring.ok.exists_mask_eq {c : Config} {r : Ring} (h : r.ok c) :
    ∃ k, k < 32 ∧ r.cap.toNat = 2 ^ k ∧ r.mask = entriesMask k := by
  obtain ⟨⟨k, hk, hcap⟩, -⟩ := h
  have hone : 1#32 ≤ r.cap := BitVec.le_def.2 (hcap ▸ Nat.one_le_two_pow)
  refine ⟨k, hk, hcap, BitVec.eq_of_toNat_eq ?_⟩
  rw [Ring.mask, BitVec.toNat_sub_of_le hone, toNat_entriesMask hk, hcap]
  rfl

section
variable {k : Nat}

/-- An advance by no more than the free slots takes that many of them. -/
theorem availableSlots_addIndex (hk : k < 32) {w c n : U32} (hn : n ≤ availableSlots (entriesMask k) w c) :
    availableSlots (entriesMask k) (addIndex (entriesMask k) w n) c = availableSlots (entriesMask k) w c - n := by
  have hlt : (availableSlots (entriesMask k) w c - n).toNat < 2 ^ k := by
    rw [BitVec.toNat_sub_of_le hn]
    exact (Nat.sub_le _ _).trans_lt (toNat_and_mask_lt hk _)
  calc availableSlots (entriesMask k) (addIndex (entriesMask k) w n) c
    _ = (c - 1#32 - (w + n)) &&& entriesMask k := sub_and_mask_and_mask hk (c - 1#32) (w + n)
    _ = (c - 1#32 - w - n) &&& entriesMask k := by rw [← sub_sub]
    _ = (availableSlots (entriesMask k) w c - n) &&& entriesMask k := (and_mask_sub_and_mask hk _ _).symm
    _ = availableSlots (entriesMask k) w c - n := and_mask_of_lt hk hlt

/-- An advance by one more than the free slots meets the consumer index. -/
theorem addIndex_availableSlots_add_one (hk : k < 32) (w : U32) {c : U32} (hc : c.toNat < 2 ^ k) :
    addIndex (entriesMask k) w (availableSlots (entriesMask k) w c + 1#32) = c := by
  calc addIndex (entriesMask k) w (availableSlots (entriesMask k) w c + 1#32)
    _ = (availableSlots (entriesMask k) w c + (w + 1#32)) &&& entriesMask k := by
      rw [addIndex, add_left_comm]
    _ = (c - 1#32 - w + (w + 1#32)) &&& entriesMask k := add_and_mask_and_mask hk (c - 1#32 - w) (w + 1#32)
    _ = c &&& entriesMask k := by rw [← add_assoc, sub_add_cancel, sub_add_cancel]
    _ = c := and_mask_of_lt hk hc

/-- An advance by at least one slot and at most the free ones does not meet the consumer index: it would leave all free. -/
theorem addIndex_ne_consumer (hk : k < 32) {w c n : U32} (hpos : n ≠ 0#32)
    (hn : n ≤ availableSlots (entriesMask k) w c) : addIndex (entriesMask k) w n ≠ c := by
  intro hmeets
  have hle : (availableSlots (entriesMask k) w c).toNat ≤ (entriesMask k).toNat := by
    rw [toNat_entriesMask hk]
    exact toNat_and_mask_le hk _
  have hfree : entriesMask k = availableSlots (entriesMask k) w c - n := by
    rw [← availableSlots_addIndex hk hn, hmeets, availableSlots_empty]
  have hfewer := congrArg BitVec.toNat hfree
  rw [BitVec.toNat_sub_of_le hn] at hfewer
  bv_omega

/-- In its intended range the guard cuts the advance off at the free slots. -/
theorem guardedAdvance_toNat (hk : k < 32) {r : Ring} (hmask : r.mask = entriesMask k) (hsw : r.sw.toNat < 2 ^ k)
    {n : U32} (hpos : n ≠ 0#32) (hn : n.toNat ≤ (availableSlots r.mask r.wr r.sw).toNat + 1) :
    (guardedAdvance r n).toNat = min n.toNat (availableSlots r.mask r.wr r.sw).toNat := by
  unfold guardedAdvance
  rw [hmask] at hn ⊢
  obtain hle | hover : n ≤ availableSlots (entriesMask k) r.wr r.sw ∨
      n = availableSlots (entriesMask k) r.wr r.sw + 1#32 := by bv_omega
  · rw [if_neg (addIndex_ne_consumer hk hpos hle), min_eq_left (BitVec.le_def.1 hle)]
  · rw [hover, if_pos (addIndex_availableSlots_add_one hk r.wr hsw), BitVec.add_sub_cancel]
    rw [hover] at hpos
    bv_omega

end

end

/-- In its intended range `rx_update_write_idx` takes as many of the free slots as are asked for and there, and what is no
longer free is outstanding (R165 (b)). -/
theorem Ring.ok.advanced_slots {c : Config} {r : Ring} (h : r.ok c) {n : U32} (hpos : n ≠ 0#32)
    (hn : n.toNat ≤ (availableSlots r.mask r.wr r.sw).toNat + 1) :
    (r.advanced n).wr.toNat < r.cap.toNat ∧
    (availableSlots r.mask (r.advanced n).wr r.sw).toNat = (availableSlots r.mask r.wr r.sw).toNat - n.toNat ∧
    (outstanding r.mask (r.advanced n).wr r.sw).toNat =
      (outstanding r.mask r.wr r.sw).toNat + min n.toNat (availableSlots r.mask r.wr r.sw).toNat := by
  obtain ⟨k, hk, hcap, hmask⟩ := h.exists_mask_eq
  obtain ⟨-, hsw, -⟩ := h
  have hguard := guardedAdvance_toNat hk hmask (hcap ▸ hsw) hpos hn
  have hwr : (r.advanced n).wr = addIndex (entriesMask k) r.wr (guardedAdvance r n) := hmask ▸ rfl
  rw [hmask] at hguard ⊢
  have hle : guardedAdvance r n ≤ availableSlots (entriesMask k) r.wr r.sw := by
    rw [BitVec.le_def, hguard]
    exact min_le_right _ _
  have hfree := congrArg BitVec.toNat (availableSlots_addIndex hk hle)
  rw [BitVec.toNat_sub_of_le hle, hguard, ← hwr] at hfree
  have hbefore := availableSlots_add_outstanding hk r.wr r.sw
  have hafter := availableSlots_add_outstanding hk (r.advanced n).wr r.sw
  refine ⟨?_, by omega, by omega⟩
  rw [hwr, hcap]
  exact toNat_and_mask_lt hk _

/-- Settles O32: the operation stores the advanced ring; its operand is legal since a ring has fewer than `2^32` slots. -/
theorem rxUpdateInRangeKeepsReservedSlot : Obligations.RxUpdateInRangeKeepsReservedSlot := by
  intro s nl p r h hok hpos hrange
  have ⟨⟨_, hid⟩, _⟩ := h
  obtain ⟨k, hk, -, hmask⟩ := hok.exists_mask_eq
  have hword := two_pow_lt_word hk
  have hfree : (availableSlots r.mask r.wr r.sw).toNat < 2 ^ k := hmask ▸ toNat_and_mask_lt hk _
  have hfits : s.cur.x3 < 2 ^ 32 := by omega
  have hn : (low32 s.cur.x3).toNat = s.cur.x3 := Nat.mod_eq_of_lt hfits
  have hnz : low32 s.cur.x3 ≠ 0#32 := by bv_omega
  have hslots := hok.advanced_slots hnz (by rwa [hn])
  rw [hn] at hslots
  exact ⟨_, r.advanced (low32 s.cur.x3), (exec_rxUpdateWriteIdx h (decide_eq_true hfits)).trans (if_neg hnz),
    congrArg (·.pipe.dst) (State.storeDst_entry hid (r.advanced (low32 s.cur.x3))), rfl, hslots⟩

end Sys2Proof.Machine
end

section
/-! Receive completion (spec/44_receive_completion.md R170 to R174): `completed_recv_next` and `revoke_recv_next`. Both free
the slot at `sw_index` and hand out what it held. A completion is told by the length field in memory and leaves the context
of a pipe that reuses contexts; a revocation is told by the ring's own indices and always clears the context. -/

namespace Sys2Proof.Machine

section
variable {s t : State} {nl : Bool} {p : PipeField} {id : Nat}

/-! ### Results written to the running port (R109) -/

/-- The status, the context and the byte count of R171 are written to the running port alone. -/
theorem State.setX1_setX3_returnStatus (hport : s.port < s.nHosts) (v w : Nat) (st : Status) :
    ((s.setX1 v).setX3 w).returnStatus st = s.setCur { s.cur with x0 := statusCode st, x1 := v, x3 := w } := by
  simp only [State.setX1, State.setX3, State.returnStatus, State.setCur_cur s _ hport, State.setCur_setCur]

/-- The status, the context and the buffer address of R173 are written to the running port alone. -/
theorem State.setX1_setX2_returnStatus (hport : s.port < s.nHosts) (v w : Nat) (st : Status) :
    ((s.setX1 v).setX2 w).returnStatus st = s.setCur { s.cur with x0 := statusCode st, x1 := v, x2 := w } := by
  simp only [State.setX1, State.setX2, State.returnStatus, State.setCur_cur s _ hport, State.setCur_setCur]

theorem PipeFrame.setX2 (h : PipeFrame id s t) (v : Nat) : PipeFrame id s (t.setX2 v) := h.setCur _

/-! ### The slot at `sw_index` freed (R171, R173) -/

theorem PipeFrame.freeDstSlot (h : PipeFrame id s t) (r : Ring) (keep : Bool) :
    PipeFrame id s (t.freeDstSlot id r keep) :=
  (h.memWrite (lenWordAt r.base r.sw) 0#32).setDst _

/-- `sw_index` advances, and the context of the slot is cleared unless it is kept. -/
theorem State.freeDstSlot_entry (hid : id < s.nPipes) (r : Ring) (keep : Bool) :
    (s.freeDstSlot id r keep).entry id = { s.entry id with
      pipe := { s.pipe id with
        dst := some { r with
          sw := increment r.mask r.sw
          ctx := if keep then r.ctx else sparseErase r.ctx r.sw.toNat } } } := by
  have hset := (State.setDst_entry (s.clearLen r.base r.sw) id id
    (if keep then r.advanceSw else (r.clearContext r.sw).advanceSw)).trans (if_pos ⟨rfl, hid⟩)
  cases keep <;> exact hset

theorem State.freeDstSlot_lenWord (s : State) (id : Nat) (r : Ring) (keep : Bool) :
    Memory.read4 (s.freeDstSlot id r keep).mem (descAddr r.base r.sw + 4) = 0#32 :=
  Memory.read4_write4_same s.mem (lenWordAt r.base r.sw) 0#32

theorem State.freeDstSlot_sameMemoryOutside (s : State) (id : Nat) (r : Ring) (keep : Bool) :
    SameMemoryOutside (descAddr r.base r.sw + 4) 4 s (s.freeDstSlot id r keep) :=
  fun b hb => Memory.read_write4_outside s.mem (lenWordAt r.base r.sw) b 0#32 hb

theorem State.freeDstSlot_trace (s : State) (id : Nat) (r : Ring) (keep : Bool) :
    (s.freeDstSlot id r keep).trace = .memWrite (descAddr r.base r.sw + 4) 0#32 :: s.trace := rfl

/-! ### `completed_recv_next` (R170, R171) -/

/-- The two answers of `completed_recv_next`: the length field in memory tells whether a buffer was filled. -/
theorem exec_completedRecvNext {r : Ring} (h : DstReady nl p r s) :
    exec (.completedRecvNext nl p) s = s.withSlot r.base r.sw
      (if Memory.descLen s.mem r.base r.sw = 0#16 then .next (s.returnStatus .notReady)
      else .next ((((s.freeDstSlot p.toNat r (s.pipe p.toNat).reusesReceiveContext).setX1
        (contextResult (r.context r.sw))).setX3 (result (Memory.descLen s.mem r.base r.sw))).returnStatus .ok)) := by
  have ⟨⟨henter, _⟩, _⟩ := h
  have hfree := (PipeFrame.refl p.toNat s).freeDstSlot r (s.pipe p.toNat).reusesReceiveContext
  have hresults := ((hfree.setX1 (contextResult (r.context r.sw))).setX3
    (result (Memory.descLen s.mem r.base r.sw))).mayEnter henter
  rw [← henter.acquire_finish, ← hresults.acquire_finish]
  exact DstReady.locked_withDst h rfl rfl _

/-- Settles O33: a filled slot is freed, its context kept exactly on a pipe that reuses contexts, and the byte count comes
from memory as it was before. -/
theorem completedRecvNextReturnsByteCount : Obligations.CompletedRecvNextReturnsByteCount := by
  refine ⟨fun _ _ => rfl, fun s nl p r h hslot => ?_⟩
  intro id n
  have ⟨⟨henter, hid⟩, _⟩ := h
  rw [exec_completedRecvNext h, State.withSlot_of_inSpace _ _ _ _ hslot, Memory.descLen_eq]
  refine ⟨fun hzero => if_pos hzero, fun hfilled => ?_⟩
  have hframe := (PipeFrame.refl id s).freeDstSlot r (s.pipe id).reusesReceiveContext
  obtain ⟨hport, -⟩ := hframe.mayEnter henter
  rw [if_neg hfilled, State.setX1_setX3_returnStatus hport]
  exact ⟨_, rfl, hframe.setCur _, State.setCur_cur _ _ hport, State.freeDstSlot_entry hid r _,
    State.freeDstSlot_lenWord s id r (s.pipe id).reusesReceiveContext,
    State.freeDstSlot_sameMemoryOutside s id r (s.pipe id).reusesReceiveContext,
    State.freeDstSlot_trace s id r (s.pipe id).reusesReceiveContext⟩

/-! ### `revoke_recv_next` (R173) -/

/-- The two answers of `revoke_recv_next`: only the ring's own indices tell whether a buffer is posted. -/
theorem exec_revokeRecvNext {r : Ring} (h : DstReady nl p r s) :
    exec (.revokeRecvNext nl p) s =
      if r.wr = r.sw then .next (s.returnStatus .noData)
      else s.withSlot r.base r.sw
        (.next ((((s.freeDstSlot p.toNat r false).setX1 (contextResult (r.context r.sw))).setX2
          (result (Memory.descAddrWord s.mem r.base r.sw))).returnStatus .ok)) := by
  have ⟨⟨henter, _⟩, _⟩ := h
  have hresults := ((((PipeFrame.refl p.toNat s).freeDstSlot r false).setX1 (contextResult (r.context r.sw))).setX2
    (result (Memory.descAddrWord s.mem r.base r.sw))).mayEnter henter
  rw [← henter.acquire_finish, ← hresults.acquire_finish]
  exact DstReady.locked_withDst h rfl rfl _

/-- Settles O34: the slot is freed with its context cleared, whether or not the pipe reuses contexts. -/
theorem revokeRecvNextDrainsOldest : Obligations.RevokeRecvNextDrainsOldest := by
  refine ⟨fun _ _ => rfl, fun s nl p r h => ?_⟩
  intro id
  have ⟨⟨henter, hid⟩, _⟩ := h
  rw [exec_revokeRecvNext h]
  refine ⟨fun hempty => if_pos hempty, fun hposted hslot => ?_⟩
  have hframe := (PipeFrame.refl id s).freeDstSlot r false
  obtain ⟨hport, -⟩ := hframe.mayEnter henter
  rw [if_neg hposted, State.withSlot_of_inSpace _ _ _ _ hslot, State.setX1_setX2_returnStatus hport]
  exact ⟨_, rfl, hframe.setCur _, State.setCur_cur _ _ hport, State.freeDstSlot_entry hid r false,
    State.freeDstSlot_lenWord s id r false, State.freeDstSlot_sameMemoryOutside s id r false,
    State.freeDstSlot_trace s id r false⟩

end

end Sys2Proof.Machine
end

section
/-! Interrupt service (spec/45_interrupt_service.md R180 to R184): the entry of the two service operations, the stages they
go through, and the statements about them. Phases A and C both clear status bits of one pipe and write the running port
(`StatusCleared`). -/

namespace Sys2Proof.Machine

section
variable {s : State} {id h : Nat} {v : Svc} {rest : List Input}

/-! ### Status bits cleared (R45, R180) -/

/-- A register write other than of `DST_SIZE` changes the control block of its pipe where the device responds, and nothing
else of the pipe (R16, R46). -/
theorem State.regWrite_entry_cb (hid : id < s.nPipes) {f : RegField} (hf : f ≠ .dstSize) (m : U32) :
    (s.regWrite (.block id f) m).entry id = { s.entry id with
      cb := if s.devAlive then (s.entry id).cb.put m f else (s.entry id).cb } := by
  rw [State.regWrite_entry]
  by_cases halive : s.devAlive = true
  · simp [hid, halive, PipeEntry.put, DeviceState.onWrite, hf]
  · simp [halive]

/-- From `s` to `t` the bits `m` of one pipe's `INT_STATUS` are cleared, by a register write that a dead device drops, and
the running port becomes `p`; nothing else changes. -/
abbrev StatusCleared (id : Nat) (m : U32) (p : Port) (s t : State) : Prop :=
  PipeFrame id s t ∧ t.cur = p ∧
  t.entry id = { s.entry id with
    cb := if s.devAlive then { (s.entry id).cb with intStatus := (s.entry id).cb.intStatus &&& ~~~m }
      else (s.entry id).cb } ∧
  SameMemory s t ∧ t.trace = .regWrite (s.regAddr (.block id .intStatus)) m :: s.trace

theorem State.statusCleared_setCur (hport : s.port < s.nHosts) (hid : id < s.nPipes) (m : U32) (p : Port) :
    StatusCleared id m p s ((s.regWrite (.block id .intStatus) m).setCur p) :=
  ⟨((PipeFrame.refl id s).regWrite .intStatus m).setCur p, State.setCur_cur _ p hport,
    State.regWrite_entry_cb hid (f := .intStatus) nofun m, fun _ => rfl, rfl⟩

/-! ### The phases (R180) -/

/-- Phase A with the lock free. -/
theorem State.statusCleared_phaseA (hport : s.port < s.nHosts) (hid : id < s.nPipes) (hfree : s.lockOwner = none)
    (enclosed : Bool) (rem : U32) :
    StatusCleared id s.cfg.ccMask { s.cur with svc := some ⟨.beforeRecv id, enclosed, rem⟩ } s
      (s.phaseA id enclosed rem) := by
  rw [State.phaseA_free s id enclosed rem hfree]
  exact State.statusCleared_setCur hport hid _ _

/-- The end of a service operation writes the running port alone. -/
theorem State.serviceDone_eq (hport : s.port < s.nHosts) :
    s.serviceDone = s.setCur { s.cur with svc := none, x0 := 0 } := by
  rw [State.serviceDone, State.setSvc, State.returnStatus, State.setCur_cur s _ hport, State.setCur_setCur]
  rfl

/-- Phase C: a service operation issued on its own ends, one inside `service_any_pending` scans on (R183). -/
theorem State.statusCleared_phaseC (hport : s.port < s.nHosts) (hid : id < s.nPipes) (enclosed : Bool) (rem : U32) :
    StatusCleared id s.cfg.wmMask
      (if enclosed then { s.cur with svc := some ⟨.scan, true, rem⟩ } else { s.cur with svc := none, x0 := 0 }) s
      (s.phaseC id enclosed rem) := by
  cases enclosed with
  | true => exact State.statusCleared_setCur hport hid _ _
  | false =>
    have hdone : s.phaseC id false rem =
        (s.regWrite (.block id .intStatus) s.cfg.wmMask).setCur { s.cur with svc := none, x0 := 0 } :=
      State.serviceDone_eq hport
    rw [hdone]
    exact State.statusCleared_setCur hport hid _ _

/-! ### The entry (R182, R184) -/

theorem State.serviceEntry_of_idle (hlock : s.lockOwner ≠ some s.port) (hsvc : s.cur.svc = none) (k : Outcome) :
    s.serviceEntry k = k := by
  simp [State.serviceEntry, hlock, hsvc]

theorem State.serviceEntry_of_inService (hlock : s.lockOwner ≠ some s.port) (hsvc : s.cur.svc ≠ none) (k : Outcome) :
    s.serviceEntry k = .refused .nestedService := by
  simp [State.serviceEntry, hlock, Option.isSome_iff_ne_none.2 hsvc]

theorem exec_servicePipe {p : PipeField} (hid : p.toNat < s.nPipes) :
    exec (.servicePipe p) s = s.serviceEntry (.next (s.phaseA p.toNat false 0#32)) :=
  if_pos (decide_eq_true hid)

/-- Settles O41: entry lets an idle port into phase A and turns one in a service operation away. -/
theorem servicePipeClearsStatusFirst : Obligations.ServicePipeClearsStatusFirst := by
  refine ⟨fun _ => rfl, fun s p hport hid => ?_⟩
  intro id
  rw [exec_servicePipe hid]
  refine ⟨fun hfree hidle => ?_, fun hlock hbusy => ?_⟩
  · have hlock : s.lockOwner ≠ some s.port := by simp [hfree]
    exact ⟨_, State.serviceEntry_of_idle hlock hidle _, State.statusCleared_phaseA hport hid hfree false 0#32⟩
  · exact ⟨State.serviceEntry_of_inService hlock hbusy _, State.serviceEntry_of_inService hlock hbusy _⟩

/-! ### A service operation goes on (R180, R207) -/

/-- The state in which port `h` makes its move, the move taken from the inputs. -/
abbrev State.atMove (s : State) (h : Nat) (rest : List Input) : State := { s with inputs := rest, port := h }

/-- A port in a service operation, with no operation waiting, takes the next stage when it goes on. -/
theorem step_serviceStage (hin : s.inputs = .advance h :: rest) (hport : h < s.nHosts)
    (hwait : (s.portAt h).waiting = none) (hsvc : (s.portAt h).svc = some v) :
    step s = (s.atMove h rest).serviceStage v := by
  have hwait' : (s.atMove h rest).cur.waiting = none := hwait
  have hsvc' : (s.atMove h rest).cur.svc = some v := hsvc
  calc step s = advancePort h { s with inputs := rest } := step_of_inputs hin
    _ = goOn (s.atMove h rest) := if_pos hport
    _ = _ := by simp only [goOn, hwait', hsvc']

/-- The return of a callback reaches the service operation of its port (R181). -/
theorem step_callbackDone (hin : s.inputs = .callbackReturn h :: rest) (hport : h < s.nHosts)
    (hwait : (s.portAt h).waiting = none) (hsvc : (s.portAt h).svc = some v) :
    step s = (s.atMove h rest).callbackDone v := by
  have hsvc' : (({ s with inputs := rest } : State).portAt h).svc = some v := hsvc
  calc step s = returnCallback h { s with inputs := rest } := step_of_inputs hin
    _ = _ := by
      rw [returnCallback, if_pos ⟨hport, hwait⟩]
      simp only [hsvc']
      rfl

/-- Phase C waits while another port holds the lock (R207), and runs with the lock free. -/
theorem State.serviceStage_phaseC (hown : s.lockOwner ≠ some s.port) (enclosed : Bool) (rem : U32) :
    s.serviceStage ⟨.phaseC id, enclosed, rem⟩ =
      if s.lockOwner = none then .next (s.phaseC id enclosed rem) else .next s := by
  simp [State.serviceStage, hown]

/-- Settles O43: phase C clears the watermark status, and waits while another port holds the lock. -/
theorem servicePipeEndsWithWatermarkClear : Obligations.ServicePipeEndsWithWatermarkClear := by
  intro s h id enclosed rem rest hport hid hin hwait hsvc
  rw [step_serviceStage hin hport hwait hsvc]
  refine ⟨fun hfree => ?_, fun k hheld hne => ?_⟩
  · rw [State.serviceStage_phaseC (by simp [hfree]), if_pos hfree]
    exact ⟨_, rfl, State.statusCleared_phaseC (s := s.atMove h rest) hport hid enclosed rem⟩
  · rw [State.serviceStage_phaseC (by simp [hheld, hne]), if_neg (by simp [hheld])]

/-! ### The callbacks (R180 phase B, R181, R277) -/

theorem Pipe.recvCallback_iff (p : Pipe) : p.recvCallback = true ↔ p.phase ≠ .unallocated ∧ p.hasRecvCb = true := by
  simp [Pipe.recvCallback]

theorem Pipe.sendCallback_iff (p : Pipe) : p.sendCallback = true ↔ p.phase ≠ .unallocated ∧ p.hasSendCb = true := by
  simp [Pipe.sendCallback]

theorem State.serviceStage_beforeRecv (hv : v.stage = .beforeRecv id) :
    s.serviceStage v = if (s.pipe id).recvCallback then
        .next ((s.emit (.notifyRecv s.port id)).setSvc (some { v with stage := .inRecv id }))
      else .next (s.setSvc (some { v with stage := .beforeSend id })) := by
  simp [State.serviceStage, hv]

theorem State.serviceStage_beforeSend (hv : v.stage = .beforeSend id) :
    s.serviceStage v = if (s.pipe id).sendCallback then
        .next ((s.emit (.notifySend s.port id)).setSvc (some { v with stage := .inSend id }))
      else .next (s.setSvc (some { v with stage := .phaseC id })) := by
  simp [State.serviceStage, hv]

/-- Inside a callback the port makes no step of its own. -/
theorem State.serviceStage_inCallback (hv : v.stage = .inRecv id ∨ v.stage = .inSend id) :
    s.serviceStage v = .next s := by
  obtain hv | hv := hv <;> simp [State.serviceStage, hv]

theorem State.callbackDone_inRecv (hv : v.stage = .inRecv id) :
    s.callbackDone v = if s.lockOwner = some s.port then .refused .relockByOwner
      else .next (s.setSvc (some { v with stage := .beforeSend id })) := by
  simp [State.callbackDone, hv]

theorem State.callbackDone_inSend (hv : v.stage = .inSend id) :
    s.callbackDone v = if s.lockOwner = some s.port then .refused .relockByOwner
      else .next (s.setSvc (some { v with stage := .phaseC id })) := by
  simp [State.callbackDone, hv]

/-- Settles O42: each stage of phase B says which stage comes next. -/
theorem callbacksRunReceiveThenSend : Obligations.CallbacksRunReceiveThenSend := by
  intro s h id v rest hport hwait hsvc
  refine ⟨fun hin hv => ?_, fun hin hv => ?_, fun hin hv => ?_, fun hin hv => ?_, fun hin hv => ?_⟩
  · rw [step_serviceStage hin hport hwait hsvc, State.serviceStage_beforeRecv hv, ← Pipe.recvCallback_iff]
    exact ⟨fun hcb => if_pos hcb, fun hcb => if_neg hcb⟩
  · rw [step_serviceStage hin hport hwait hsvc, State.serviceStage_beforeSend hv, ← Pipe.sendCallback_iff]
    exact ⟨fun hcb => if_pos hcb, fun hcb => if_neg hcb⟩
  · rw [step_callbackDone hin hport hwait hsvc, State.callbackDone_inRecv hv]
    exact ⟨fun hlock => if_neg hlock, fun hlock => if_pos hlock⟩
  · rw [step_callbackDone hin hport hwait hsvc, State.callbackDone_inSend hv]
    exact ⟨fun hlock => if_neg hlock, fun hlock => if_pos hlock⟩
  · rw [step_serviceStage hin hport hwait hsvc, State.serviceStage_inCallback hv]

/-! ### The bits of `service_any_pending` (R183) -/

/-- `2 ^ n - 1` as a word, where `n` may be the word's width. -/
theorem one_shiftLeft_sub_one (n : Nat) : 1#32 <<< n - 1#32 = BitVec.ofNat 32 (2 ^ n - 1) := by
  have hsum : 2 ^ n - 1 + 1 = 2 ^ n := Nat.sub_add_cancel Nat.one_le_two_pow
  rw [sub_eq_iff_eq_add, ← BitVec.ofNat_add, hsum, ← BitVec.twoPow_eq]
  exact BitVec.eq_of_toNat_eq (by simp [BitVec.toNat_twoPow])

/-- The bits of existing pipes are kept. -/
theorem State.getLsbD_pipeBits (s : State) (w : U32) (i : Nat) :
    (s.pipeBits w).getLsbD i = (decide (i < s.nPipes) && w.getLsbD i) := by
  obtain hi | hi := lt_or_ge i 32
  · rw [State.pipeBits, one_shiftLeft_sub_one, BitVec.getLsbD_and, BitVec.getLsbD_ofNat, Nat.testBit_two_pow_sub_one,
      Bool.and_comm]
    simp [hi]
  · simp [BitVec.getLsbD_of_ge _ _ hi]

/-- One bit is consumed. -/
theorem getLsbD_clearBit (w : U32) (i j : Nat) :
    (w &&& ~~~(1#32 <<< i)).getLsbD j = (w.getLsbD j && decide (j ≠ i)) := by
  obtain hj | hj := lt_or_ge j 32
  · rw [← BitVec.twoPow_eq]
    by_cases hij : i = j
    · simp [hij, hj]
    · simp [Ne.symm hij, hj]
  · simp [BitVec.getLsbD_of_ge _ _ hj]

/-- With no bit of an existing pipe left, the scan ends the operation. -/
theorem State.serviceStage_scan_of_none {rem : U32} (hnone : ∀ j, j < s.nPipes → rem.getLsbD j = false) :
    s.serviceStage ⟨.scan, true, rem⟩ = .next s.serviceDone := by
  have hnext : s.nextPending rem = none := List.find?_eq_none.2 fun j hj => by simp [hnone j (List.mem_range.1 hj)]
  simp [State.serviceStage, hnext]

/-- The scan takes the lowest bit and goes to phase A of its pipe. -/
theorem State.serviceStage_scan_of_lowest {rem : U32} (hid : id < s.nPipes) (hbit : rem.getLsbD id = true)
    (hlow : ∀ j, j < id → rem.getLsbD j = false) :
    s.serviceStage ⟨.scan, true, rem⟩ = .next (s.phaseA id true (rem &&& ~~~(1#32 <<< id))) := by
  have hnext : s.nextPending rem = some id :=
    List.find?_range_eq_some.2 ⟨hbit, List.mem_range.2 hid, fun j hj => by simp [hlow j hj]⟩
  simp [State.serviceStage, hnext]

/-- Settles O44: the one read is recorded, and the service progress takes the bits of existing pipes. -/
theorem serviceAnyPendingReadsSummaryOnce : Obligations.ServiceAnyPendingReadsSummaryOnce := by
  refine ⟨rfl, fun s _ _ hlock hidle => ?_⟩
  intro w
  exact ⟨s.pipeBits w, s.getLsbD_pipeBits w, State.serviceEntry_of_idle hlock hidle _⟩

/-- Settles O45: the scan ends, or takes the lowest bit and goes to phase A of its pipe, which waits while the lock is
held. -/
theorem serviceAnyPendingTakesLowestPipe : Obligations.ServiceAnyPendingTakesLowestPipe := by
  intro s h rem rest hport _ hin hwait hsvc
  rw [step_serviceStage hin hport hwait hsvc]
  refine ⟨fun hnone => ?_, fun id hid hbit hlow hfree => ?_, fun id k hid hbit hlow hheld _ => ?_⟩
  · rw [State.serviceStage_scan_of_none (s := s.atMove h rest) hnone, State.serviceDone_eq (s := s.atMove h rest) hport]
    rfl
  · have ⟨hframe, hcleared⟩ := State.statusCleared_phaseA (s := s.atMove h rest) hport hid hfree true
      (rem &&& ~~~(1#32 <<< id))
    exact ⟨_, _, State.serviceStage_scan_of_lowest (s := s.atMove h rest) hid hbit hlow, hframe, getLsbD_clearBit rem id,
      hcleared⟩
  · have hlocked : (s.atMove h rest).lockOwner ≠ none := by simp [hheld]
    refine ⟨_, getLsbD_clearBit rem id, ?_⟩
    rw [State.serviceStage_scan_of_lowest (s := s.atMove h rest) hid hbit hlow, State.phaseA_held _ _ _ _ hlocked]
    rfl

end

end Sys2Proof.Machine
end

section
/-! The interrupt enables (spec/45_interrupt_service.md R185 to R187): the loop over the pipes leaves each pipe as one write
of its own `INT_ENABLE` does, and the two operations differ in the values they write. -/

namespace Sys2Proof.Machine

section
variable {s : State} {nl : Bool}

/-! ### The loop -/

/-- The loop changes the pipe table and the outputs alone. -/
theorem State.writeEnables_frame (value : Nat → U32) (k id : Nat) (s : State) :
    State.writeEnables value k id s = { s with
      pipes := (State.writeEnables value k id s).pipes, trace := (State.writeEnables value k id s).trace } := by
  induction k generalizing id s with
  | zero => rfl
  | succ k ih => exact ih (id + 1) (s.regWrite (.block id .intEnable) (value id))

/-- The loop does not look at the lock. -/
theorem State.acquire_writeEnables (value : Nat → U32) (k id : Nat) (s : State) :
    State.writeEnables value k id s.acquire = (State.writeEnables value k id s).acquire := by
  induction k generalizing id s with
  | zero => rfl
  | succ k ih => exact ih (id + 1) (s.regWrite (.block id .intEnable) (value id))

/-- A pipe before the first one of the loop stays as it is. -/
theorem State.writeEnables_entry_of_lt (value : Nat → U32) (k id : Nat) (s : State) {j : Nat} (hj : j < id) :
    (State.writeEnables value k id s).entry j = s.entry j := by
  induction k generalizing id s with
  | zero => rfl
  | succ k ih =>
    rw [State.writeEnables_succ, ih (id + 1) _ (Nat.lt_succ_of_lt hj), State.regWrite_entry_other _ _ _ _ _ hj.ne]

/-- A pipe of the loop is left as by its own write alone. -/
theorem State.writeEnables_entry (value : Nat → U32) (k id : Nat) (s : State) {j : Nat} (hlow : id ≤ j)
    (hhigh : j < id + k) :
    (State.writeEnables value k id s).entry j = (s.regWrite (.block j .intEnable) (value j)).entry j := by
  induction k generalizing id s with
  | zero => omega
  | succ k ih =>
    rw [State.writeEnables_succ]
    obtain rfl | hlt := hlow.eq_or_lt
    · exact State.writeEnables_entry_of_lt value k (id + 1) _ (Nat.lt_succ_self id)
    · have hfirst : (s.regWrite (.block id .intEnable) (value id)).entry j = s.entry j :=
        State.regWrite_entry_other _ _ _ _ _ hlt.ne'
      rw [ih (id + 1) _ hlt (by omega), State.regWrite_entry, hfirst, State.regWrite_nPipes, State.regWrite_devAlive,
        ← State.regWrite_entry]

/-! ### The operations -/

/-- The state after an enable operation that may run: the loop over every pipe, then `Ok`. -/
def State.enablesWritten (s : State) (value : Nat → U32) : State :=
  (State.writeEnables value s.nPipes 0 s).returnStatus .ok

/-- From `s` to `t` every pipe's `INT_ENABLE` takes its value, unless the device is dead, and the status is `Ok`; nothing
else changes but the outputs. -/
abbrev EnablesWritten (value : Nat → U32) (s t : State) : Prop :=
  SameGlobals s t ∧ SameDraws s t ∧ OtherPortsSame s t ∧ t.nPipes = s.nPipes ∧ t.cur = { s.cur with x0 := 0 } ∧
  SameMemory s t ∧ ∀ id, id < s.nPipes → t.entry id = { s.entry id with
    cb := if s.devAlive then { (s.entry id).cb with intEnable := value id } else (s.entry id).cb }

theorem State.enablesWritten_spec (hport : s.port < s.nHosts) (value : Nat → U32) :
    EnablesWritten value s (s.enablesWritten value) := by
  have hentry (id : Nat) (hid : id < s.nPipes) := (State.writeEnables_entry value s.nPipes 0 s (Nat.zero_le id)
    (by omega)).trans (State.regWrite_entry_cb hid (f := .intEnable) nofun (value id))
  have hpipes := State.writeEnables_nPipes value s.nPipes 0 s
  unfold State.enablesWritten
  rw [State.writeEnables_frame] at hentry hpipes ⊢
  exact ⟨⟨rfl, rfl, rfl, rfl, rfl⟩, ⟨rfl, rfl⟩,
    ⟨State.setCur_nHosts _ _, fun k hk => State.setCur_portAt_other _ _ k hk⟩, hpipes, State.setCur_cur _ _ hport,
    fun _ => rfl, hentry⟩

/-- Both operations write the enables with the lock held and leave it as they found it. -/
theorem MayEnter.writeEnables_finish (h : MayEnter nl s) (value : Nat → U32) :
    (State.writeEnables value s.acquire.nPipes 0 s.acquire).finish nl .ok = s.enablesWritten value := by
  have hloop : MayEnter nl (State.writeEnables value s.nPipes 0 s) := by
    rw [State.writeEnables_frame]
    exact h
  rw [State.acquire_writeEnables]
  exact hloop.acquire_finish .ok

theorem exec_enableInterrupts (h : MayEnter nl s) :
    exec (.enableInterrupts nl) s = .next (s.enablesWritten s.enableValue) :=
  (State.locked_of_mayEnter s (.enableInterrupts nl) nl true _ rfl rfl h).trans
    (congrArg Host.Outcome.next (h.writeEnables_finish s.enableValue))

theorem exec_disableInterrupts (h : MayEnter nl s) :
    exec (.disableInterrupts nl) s = .next (s.enablesWritten fun _ => 0#32) :=
  (State.locked_of_mayEnter s (.disableInterrupts nl) nl true _ rfl rfl h).trans
    (congrArg Host.Outcome.next (h.writeEnables_finish fun _ => 0#32))

/-- The policy of R185. -/
theorem Pipe.ccWanted_iff (p : Pipe) : p.ccWanted = true ↔
    p.phase ≠ .unallocated ∧ (p.hasSendCb = true ∨ p.hasRecvCb = true) ∧ p.interruptDisabled = false := by
  simp [Pipe.ccWanted, and_assoc]

/-- Settles O46: the values written are the policy's for one operation and 0 for the other. -/
theorem interruptEnablesFollowPolicy : Obligations.InterruptEnablesFollowPolicy := by
  refine ⟨fun _ => rfl, fun _ => rfl, fun s nl henter => ?_⟩
  intro wanted written
  have ⟨hport, _⟩ := henter
  refine ⟨⟨_, exec_enableInterrupts henter, ?_⟩, ⟨_, exec_disableInterrupts henter, State.enablesWritten_spec hport _⟩⟩
  obtain ⟨hglobals, hdraws, hports, hpipes, hcur, hmem, hentry⟩ := State.enablesWritten_spec hport s.enableValue
  refine ⟨hglobals, hdraws, hports, hpipes, hcur, hmem, fun id hid => ?_⟩
  have hvalue : written (s.enablesWritten s.enableValue) id (s.enableValue id) := hentry id hid
  refine ⟨fun hwanted => ?_, fun hunwanted => ?_⟩
  · rwa [State.enableValue, if_pos ((Pipe.ccWanted_iff _).2 hwanted)] at hvalue
  · rwa [State.enableValue, if_neg (hunwanted ∘ (Pipe.ccWanted_iff _).1)] at hvalue

end

end Sys2Proof.Machine
end

section
/-! The refusals of the ring operations (spec/46_lifecycle.md R198, spec/60_exceptions.md R238): each of the ten selects its ring
before it does anything else, so where the phase or the ring is missing the selection is the answer. -/

namespace Sys2Proof.Machine

section
variable {s : State} {nl : Bool} {p : PipeField} {i : Instr}

/-- A pipe operation that may run does its work with the lock held (R210). -/
theorem PipeReady.locked (h : PipeReady nl p s) (hi : i.pipe? = some p) {legal : Bool} (hlegal : legal = true)
    (body : State → Outcome) : s.locked i nl legal body = body s.acquire :=
  State.locked_of_mayEnter s i nl legal body (PipeReady.wf h hi) hlegal h.1

/-! ### A ring that cannot be selected (R198) -/

theorem State.withSrc_of_not_active {id : Nat} (hphase : (s.pipe id).phase ≠ .active) (k : SrcRing → Outcome) :
    s.withSrc id k = .refused .pipeNotActive := if_pos hphase

theorem State.withDst_of_not_active {id : Nat} (hphase : (s.pipe id).phase ≠ .active) (k : Ring → Outcome) :
    s.withDst id k = .refused .pipeNotActive := if_pos hphase

theorem State.withSrc_of_none {id : Nat} (hphase : (s.pipe id).phase = .active) (hsrc : (s.pipe id).src = none)
    (k : SrcRing → Outcome) : s.withSrc id k = .refused .noSourceRing := by
  simp [State.withSrc, hphase, hsrc]

theorem State.withDst_of_none {id : Nat} (hphase : (s.pipe id).phase = .active) (hdst : (s.pipe id).dst = none)
    (k : Ring → Outcome) : s.withDst id k = .refused .noDestinationRing := by
  simp [State.withDst, hphase, hdst]

/-! ### The operations that select a ring (R198) -/

/-- A source-ring operation has the shared shape, and its body selects the source ring. -/
theorem exec_eq_locked_withSrc (hi : usesSrc i = true) (hnl : i.nolock? = some nl) (hp : i.pipe? = some p) :
    ∃ k : State → SrcRing → Outcome,
      ∀ s, exec i s = s.locked i nl (operandsOk i s.cur) fun u => u.withSrc p.toNat (k u) := by
  cases i with
  | send | revertLastGather | completedSendNext | cancelSendNext | availableSendSlots =>
    cases hnl
    cases hp
    exact ⟨_, fun _ => rfl⟩
  | _ => cases hi

/-- A destination-ring operation has the shared shape, and its body selects the destination ring. -/
theorem exec_eq_locked_withDst (hi : usesDst i = true) (hnl : i.nolock? = some nl) (hp : i.pipe? = some p) :
    ∃ k : State → Ring → Outcome,
      ∀ s, exec i s = s.locked i nl (operandsOk i s.cur) fun u => u.withDst p.toNat (k u) := by
  cases i with
  | rxPostBuf | rxUpdateWriteIdx | completedRecvNext | revokeRecvNext | availableRecvSlots =>
    cases hnl
    cases hp
    exact ⟨_, fun _ => rfl⟩
  | _ => cases hi

/-- A source-ring operation with the lock and legal operands goes to the selection of its ring. -/
theorem exec_of_usesSrc (hi : usesSrc i = true) (hnl : i.nolock? = some nl) (hp : i.pipe? = some p)
    (h : PipeReady nl p s) (hops : operandsOk i s.cur = true) : ∃ k, exec i s = s.acquire.withSrc p.toNat k := by
  obtain ⟨k, hexec⟩ := exec_eq_locked_withSrc hi hnl hp
  exact ⟨k s.acquire, (hexec s).trans (PipeReady.locked h hp hops _)⟩

/-- A destination-ring operation with the lock and legal operands goes to the selection of its ring. -/
theorem exec_of_usesDst (hi : usesDst i = true) (hnl : i.nolock? = some nl) (hp : i.pipe? = some p)
    (h : PipeReady nl p s) (hops : operandsOk i s.cur = true) : ∃ k, exec i s = s.acquire.withDst p.toNat k := by
  obtain ⟨k, hexec⟩ := exec_eq_locked_withDst hi hnl hp
  exact ⟨k s.acquire, (hexec s).trans (PipeReady.locked h hp hops _)⟩

/-- Settles O29: the answer of a ring operation is that of its ring selection, which refuses by name. -/
theorem ringCallsAreRefusedByRule : Obligations.RingCallsAreRefusedByRule := by
  intro i nl p s huses hnl hp h hops
  refine ⟨fun hphase => ?_, fun hphase hi hsrc => ?_, fun hphase hi hdst => ?_⟩
  · rcases huses with hi | hi
    · obtain ⟨k, hexec⟩ := exec_of_usesSrc hi hnl hp h hops
      exact hexec.trans (State.withSrc_of_not_active hphase k)
    · obtain ⟨k, hexec⟩ := exec_of_usesDst hi hnl hp h hops
      exact hexec.trans (State.withDst_of_not_active hphase k)
  · obtain ⟨k, hexec⟩ := exec_of_usesSrc hi hnl hp h hops
    exact hexec.trans (State.withSrc_of_none hphase hsrc k)
  · obtain ⟨k, hexec⟩ := exec_of_usesDst hi hnl hp h hops
    exact hexec.trans (State.withDst_of_none hphase hdst k)

end

end Sys2Proof.Machine
end

section
/-! The updates that the operations of the lifecycle share (spec/46_lifecycle.md): several registers of one pipe written in a
row, and one pipe written. -/

namespace Sys2Proof.Machine

section
variable {s t : State} {id : Nat}

/-! ### Several registers of one pipe written in a row (R16, R46) -/

/-- `RegWrite32` of the listed registers of pipe `id`, in that order. -/
def State.regWrites (s : State) (id : Nat) (ws : List (RegField × U32)) : State :=
  ws.foldl (fun u w => u.regWrite (.block id w.1) w.2) s

/-- What an entry of the pipe table becomes by the listed register writes. -/
def PipeEntry.puts (e : PipeEntry) (ws : List (RegField × U32)) : PipeEntry :=
  ws.foldl (fun e w => e.put w.2 w.1) e

theorem PipeFrame.regWrites (h : PipeFrame id s t) (ws : List (RegField × U32)) : PipeFrame id s (t.regWrites id ws) := by
  induction ws generalizing t with
  | nil => exact h
  | cons w ws ih => exact ih (h.regWrite w.1 w.2)

/-- A device that responds takes every write; one that does not takes none. -/
theorem State.regWrites_entry (hid : id < s.nPipes) (ws : List (RegField × U32)) :
    (s.regWrites id ws).entry id = if s.devAlive then (s.entry id).puts ws else s.entry id := by
  induction ws generalizing s with
  | nil => exact (ite_self _).symm
  | cons w ws ih =>
    have hid' : id < (s.regWrite (.block id w.1) w.2).nPipes := by rwa [State.regWrite_nPipes]
    refine (ih hid').trans ?_
    rw [State.regWrite_entry, State.regWrite_devAlive]
    by_cases halive : s.devAlive = true
    · simp [halive, hid, PipeEntry.puts]
    · simp [halive]

/-- Register writes change the pipe table and the outputs alone. -/
theorem State.regWrites_frame (s : State) (id : Nat) (ws : List (RegField × U32)) :
    s.regWrites id ws = { s with
      pipes := (s.regWrites id ws).pipes
      trace := (ws.map fun w => .regWrite (s.regAddr (.block id w.1)) w.2).reverse ++ s.trace } := by
  induction ws generalizing s with
  | nil => rfl
  | cons w ws ih =>
    have hrest := ih (s.regWrite (.block id w.1) w.2)
    rw [List.map_cons, List.reverse_cons, List.append_assoc]
    exact hrest

section
variable (s : State) (id : Nat) (ws : List (RegField × U32))

@[simp] theorem State.regWrites_devAlive : (s.regWrites id ws).devAlive = s.devAlive := by rw [State.regWrites_frame]

@[simp] theorem State.regWrites_cur : (s.regWrites id ws).cur = s.cur := by
  rw [State.regWrites_frame]
  rfl

@[simp] theorem State.regWrites_mem : (s.regWrites id ws).mem = s.mem := by rw [State.regWrites_frame]

@[simp] theorem State.regWrites_trace : (s.regWrites id ws).trace =
    (ws.map fun w => .regWrite (s.regAddr (.block id w.1)) w.2).reverse ++ s.trace := by rw [State.regWrites_frame]

@[simp] theorem State.regWrites_nPipes : (s.regWrites id ws).nPipes = s.nPipes :=
  PipeFrame.nPipes ((PipeFrame.refl id s).regWrites ws)

end

/-- The lock is not looked at. -/
theorem State.acquire_regWrites (s : State) (id : Nat) (ws : List (RegField × U32)) :
    s.acquire.regWrites id ws = (s.regWrites id ws).acquire := by
  induction ws generalizing s with
  | nil => rfl
  | cons w ws ih => exact ih (s.regWrite (.block id w.1) w.2)

/-! ### One pipe written (R27, R31) -/

/-- An entry of the pipe table in another phase. -/
def PipeEntry.withPhase (e : PipeEntry) (ph : Phase) : PipeEntry := { e with pipe := { e.pipe with phase := ph } }

/-- The entry of the pipe whose phase was changed. -/
theorem State.setPhase_entry_same (hid : id < s.nPipes) (ph : Phase) :
    (s.setPhase id ph).entry id = (s.entry id).withPhase ph :=
  (State.setPhase_entry s id id ph).trans (if_pos ⟨rfl, hid⟩)

/-- The entry of the pipe whose source ring was written. -/
theorem State.setSrc_entry_same (hid : id < s.nPipes) (r : SrcRing) :
    (s.setSrc id r).entry id = { s.entry id with pipe := { s.pipe id with src := some r } } :=
  (State.setSrc_entry s id id r).trans (if_pos ⟨rfl, hid⟩)

/-- The entry of the pipe whose destination ring was written. -/
theorem State.setDst_entry_same (hid : id < s.nPipes) (r : Ring) :
    (s.setDst id r).entry id = { s.entry id with pipe := { s.pipe id with dst := some r } } :=
  (State.setDst_entry s id id r).trans (if_pos ⟨rfl, hid⟩)

theorem PipeFrame.setPipe (h : PipeFrame id s t) (q : Pipe) : PipeFrame id s (t.setPipe id q) := h.updEntry _

theorem PipeFrame.setPhase (h : PipeFrame id s t) (ph : Phase) : PipeFrame id s (t.setPhase id ph) := h.setPipe _

end

end Sys2Proof.Machine
end

section
/-! The end of the lifecycle (spec/46_lifecycle.md R194, R195): `deinit_pipe` and `free_pipe`. Both keep memory; the first
writes registers of one pipe in a row (`State.regWrites`), the second writes none. -/

namespace Sys2Proof.Machine

section
variable {s t : State} {id : Nat} {nl : Bool} {p : PipeField}

/-! ### `deinit_pipe` (R194) -/

/-- The registers `deinit_pipe` writes 0: base and size of each direction with a ring. -/
def Pipe.geometryWithdrawn (p : Pipe) : List (RegField × U32) :=
  (if p.src.isSome then [(.srcBase, 0#32), (.srcSize, 0#32)] else []) ++
    (if p.dst.isSome then [(.dstBase, 0#32), (.dstSize, 0#32)] else [])

theorem State.deinitIfs_eq (s : State) (id : Nat) :
    (s.deinitSrcIf id).deinitDstIf id = s.regWrites id (s.pipe id).geometryWithdrawn := by
  unfold State.deinitDstIf Pipe.geometryWithdrawn
  rw [State.deinitSrcIf_pipe, State.deinitSrcIf]
  cases (s.pipe id).src <;> cases (s.pipe id).dst <;> rfl

/-- The entry of a pipe whose base and size registers were taken from a device that responds: `DST_SIZE` is written 0, so
the device keeps its own state (R216). -/
theorem PipeEntry.puts_geometryWithdrawn (e : PipeEntry) : e.puts e.pipe.geometryWithdrawn = { e with
    cb := { e.cb with
      srcBase := if e.pipe.src.isSome then 0#32 else e.cb.srcBase
      srcSize := if e.pipe.src.isSome then 0#32 else e.cb.srcSize
      dstBase := if e.pipe.dst.isSome then 0#32 else e.cb.dstBase
      dstSize := if e.pipe.dst.isSome then 0#32 else e.cb.dstSize } } := by
  unfold Pipe.geometryWithdrawn
  cases e.pipe.src <;> cases e.pipe.dst <;> rfl

/-- The state after a `deinit_pipe` that is not refused, up to the status. -/
def State.deinited (s : State) (id : Nat) : State :=
  (s.regWrites id (s.pipe id).geometryWithdrawn).setPhase id .allocated

theorem PipeFrame.deinited (h : PipeFrame id s t) : PipeFrame id s (t.deinited id) := (h.regWrites _).setPhase _

theorem State.deinited_entry (hid : id < s.nPipes) : (s.deinited id).entry id = { s.entry id with
    pipe := { s.pipe id with phase := .allocated }
    cb := if s.devAlive then { (s.entry id).cb with
        srcBase := if (s.pipe id).src.isSome then 0#32 else (s.entry id).cb.srcBase
        srcSize := if (s.pipe id).src.isSome then 0#32 else (s.entry id).cb.srcSize
        dstBase := if (s.pipe id).dst.isSome then 0#32 else (s.entry id).cb.dstBase
        dstSize := if (s.pipe id).dst.isSome then 0#32 else (s.entry id).cb.dstSize }
      else (s.entry id).cb } := by
  have hputs := PipeEntry.puts_geometryWithdrawn (s.entry id)
  rw [State.deinited, State.setPhase_entry_same (by simpa using hid), State.regWrites_entry hid]
  by_cases halive : s.devAlive = true
  · rw [if_pos halive, if_pos halive]
    exact congrArg (PipeEntry.withPhase · .allocated) hputs
  · rw [if_neg halive, if_neg halive]
    rfl

/-- The two answers of `deinit_pipe` on a pipe it may run on. -/
theorem exec_deinitPipe (h : PipeReady nl p s) : exec (.deinitPipe nl p) s =
    if (s.pipe p.toNat).phase ≠ .active then .refused .pipeNotActive
    else .next ((s.deinited p.toNat).returnStatus .ok) := by
  have hmay := (PipeFrame.refl p.toNat s).deinited.mayEnter h.1
  rw [← hmay.acquire_finish, State.deinited]
  refine (PipeReady.locked h rfl rfl _).trans ?_
  rw [State.deinitIfs_eq, State.acquire_regWrites]
  rfl

/-- Settles O39: the register writes are those of the directions with a ring, in the model's order. -/
theorem deinitPipeTakesRingsFromDevice : Obligations.DeinitPipeTakesRingsFromDevice := by
  refine ⟨fun _ _ => rfl, fun s nl p h => ?_⟩
  intro id e
  have ⟨henter, hid⟩ := h
  rw [exec_deinitPipe h]
  refine ⟨fun hphase => if_pos hphase, fun hactive => ⟨_, if_neg (not_not.2 hactive), ?_⟩⟩
  have hframe := (PipeFrame.refl id s).deinited
  have hcur : (s.deinited id).cur = s.cur := State.regWrites_cur s id _
  have hmem : (s.deinited id).mem = s.mem := State.regWrites_mem s id _
  have htrace : (s.deinited id).trace = _ ++ s.trace := State.regWrites_trace s id _
  refine ⟨hframe.returnStatus .ok, ?_, State.deinited_entry hid, fun b => congrArg (Memory.read · b) hmem,
    htrace.trans ?_⟩
  · rw [State.returnStatus_cur (hframe.mayEnter henter).1, hcur]
    rfl
  · rw [Pipe.geometryWithdrawn, State.pipe]
    cases e.pipe.src <;> cases e.pipe.dst <;> rfl

/-! ### `free_pipe` (R195) -/

/-- The state after a `free_pipe` that is not refused, up to the status. -/
def State.freed (s : State) (id : Nat) : State :=
  ((s.releaseRing ((s.pipe id).src.map SrcRing.toRing)).releaseRing (s.pipe id).dst).setPipe id
    { s.pipe id with phase := .unallocated, src := none, dst := none }

/-- Releasing a region is an output and nothing else. -/
theorem State.releaseRing_eq (s : State) (ring : Option Ring) : s.releaseRing ring =
    { s with trace := (ring.map fun r => Event.dmaRelease r.base (r.cap.toNat * 12)).toList ++ s.trace } := by
  cases ring <;> rfl

theorem PipeFrame.freed (h : PipeFrame id s t) : PipeFrame id s (t.freed id) := by
  unfold State.freed
  rw [State.releaseRing_eq, State.releaseRing_eq]
  exact PipeFrame.setPipe h _

/-- The two answers of `free_pipe` on a pipe it may run on. -/
theorem exec_freePipe (h : PipeReady nl p s) : exec (.freePipe nl p) s =
    if (s.pipe p.toNat).phase ≠ .allocated then .refused .pipeNotDeinitialised
    else .next ((s.freed p.toNat).returnStatus .ok) := by
  have hmay := (PipeFrame.refl p.toNat s).freed.mayEnter h.1
  rw [← hmay.acquire_finish]
  refine (PipeReady.locked h rfl rfl _).trans ?_
  simp only [State.freed, State.releaseRing_eq]
  rfl

/-- Settles O40: the releases are outputs, and the pipe alone is written. -/
theorem freePipeReleasesRings : Obligations.FreePipeReleasesRings := by
  refine ⟨fun _ _ => rfl, fun s nl p h => ?_⟩
  intro id
  have ⟨⟨hport, _⟩, hid⟩ := h
  rw [exec_freePipe h]
  refine ⟨fun hphase => if_pos hphase, fun hallocated => ⟨_, if_neg (not_not.2 hallocated), ?_⟩⟩
  have hframe := (PipeFrame.refl id s).freed.returnStatus .ok
  unfold State.freed at hframe ⊢
  rw [State.releaseRing_eq, State.releaseRing_eq] at hframe ⊢
  refine ⟨hframe, State.returnStatus_cur hport .ok, ?_, fun _ => rfl, ?_⟩
  · exact (State.setPipe_entry _ id id _).trans (if_pos ⟨rfl, hid⟩)
  · cases (s.pipe id).src <;> cases (s.pipe id).dst <;> rfl

end

end Sys2Proof.Machine
end

section
/-! `init_pipe` (spec/46_lifecycle.md R192, R193): each half zeroes its ring, seeds the indices from the hardware, stores the
ring and gives the device its geometry. The two halves write different registers, so neither disturbs the other's seeds. -/

namespace Sys2Proof.Machine

section
variable {s t : State} {id : Nat} {nl : Bool} {p : PipeField}

/-! ### Regions of memory zeroed (R192) -/

/-- Memory with every byte of the listed regions zeroed, one region after another. -/
def Memory.zeroRegions (m : Memory) (gs : List Region) : Memory := gs.foldl (fun m g => Memory.zero m g.1 g.2) m

theorem Memory.read_zeroRegions (m : Memory) (gs : List Region) (c : Nat) : Memory.read (Memory.zeroRegions m gs) c =
    if ∃ g ∈ gs, g.1 ≤ c ∧ c < g.1 + g.2 then 0#8 else Memory.read m c := by
  induction gs generalizing m with
  | nil => simp [Memory.zeroRegions]
  | cons g gs ih =>
    refine (ih (Memory.zero m g.1 g.2)).trans ?_
    rw [Memory.read_zero]
    by_cases hfirst : g.1 ≤ c ∧ c < g.1 + g.2
    · simp [hfirst, unlistedByte]
    · simp only [List.exists_mem_cons_iff, hfirst, if_false, false_or]

/-! ### Both halves -/

theorem PipeFrame.zeroRing (h : PipeFrame id s t) (r : Ring) : PipeFrame id s (t.zeroRing r) := h

section
variable (s : State) (id : Nat)

/-- The source ring with its indices seeded from the registers, masked (R193). -/
def State.seededSrc (r : SrcRing) : SrcRing :=
  { r with
    sw := s.regRead (.block id .srcRdIdx) &&& r.mask
    wr := s.regRead (.block id .srcWrIdx) &&& r.mask
    hw := s.regRead (.block id .srcRdIdx) &&& r.mask }

/-- The destination ring with its indices seeded from the registers, masked (R193). -/
def State.seededDst (r : Ring) : Ring :=
  { r with sw := s.regRead (.block id .dstRdIdx) &&& r.mask, wr := s.regRead (.block id .dstWrIdx) &&& r.mask }

/-- The geometry the device is given of a source ring: base, size and watermarks. -/
def srcGeometry (x : Port) (r : SrcRing) : List (RegField × U32) :=
  [(.srcBase, r.base), (.srcSize, r.cap), (.srcWmLow, low32 x.x1), (.srcWmHigh, low32 x.x2)]

/-- The geometry the device is given of a destination ring: base, size and watermarks. -/
def dstGeometry (x : Port) (r : Ring) : List (RegField × U32) :=
  [(.dstBase, r.base), (.dstSize, r.cap), (.dstWmLow, low32 x.x3), (.dstWmHigh, low32 x.x4)]

theorem State.initSrc_eq (r : SrcRing) : s.initSrc id r =
    ((((s.zeroRing r.toRing).noteRead (.block id .srcRdIdx)).noteRead (.block id .srcWrIdx)).setSrc id
      (s.seededSrc id r)).regWrites id (srcGeometry s.cur r) := rfl

theorem State.initDst_eq (r : Ring) : s.initDst id r =
    ((((s.zeroRing r).noteRead (.block id .dstRdIdx)).noteRead (.block id .dstWrIdx)).setDst id
      (s.seededDst id r)).regWrites id (dstGeometry s.cur r) := rfl

end

theorem PipeFrame.initSrcIf (h : PipeFrame id s t) : PipeFrame id s (t.initSrcIf id) := by
  unfold State.initSrcIf
  split
  · exact h
  · next r _ =>
    rw [State.initSrc_eq]
    exact (((PipeFrame.zeroRing h r.toRing).noteRead _).noteRead _).setSrc _ |>.regWrites _

theorem PipeFrame.initDstIf (h : PipeFrame id s t) : PipeFrame id s (t.initDstIf id) := by
  unfold State.initDstIf
  split
  · exact h
  · next r _ =>
    rw [State.initDst_eq]
    exact (((PipeFrame.zeroRing h r).noteRead _).noteRead _).setDst _ |>.regWrites _

theorem State.initSrcIf_cur (s : State) (id : Nat) : (s.initSrcIf id).cur = s.cur := by
  unfold State.initSrcIf
  split
  · rfl
  · rw [State.initSrc_eq]
    simp

theorem State.initDstIf_cur (s : State) (id : Nat) : (s.initDstIf id).cur = s.cur := by
  unfold State.initDstIf
  split
  · rfl
  · rw [State.initDst_eq]
    simp

theorem State.acquire_initSrcIf (s : State) (id : Nat) : s.acquire.initSrcIf id = (s.initSrcIf id).acquire := by
  unfold State.initSrcIf
  rw [State.acquire_pipe]
  split <;> rfl

theorem State.acquire_initDstIf (s : State) (id : Nat) : s.acquire.initDstIf id = (s.initDstIf id).acquire := by
  unfold State.initDstIf
  rw [State.acquire_pipe]
  split <;> rfl

theorem State.initSrcIf_mem (s : State) (id : Nat) : (s.initSrcIf id).mem =
    Memory.zeroRegions s.mem ((s.pipe id).src.map fun r => r.toRing.region).toList := by
  unfold State.initSrcIf
  cases (s.pipe id).src <;> rfl

theorem State.initDstIf_mem (s : State) (id : Nat) : (s.initDstIf id).mem =
    Memory.zeroRegions s.mem ((s.pipe id).dst.map Ring.region).toList := by
  unfold State.initDstIf
  cases (s.pipe id).dst <;> rfl

/-- One source ring is stored with its seeds, then the device takes its geometry where it responds. -/
theorem State.initSrc_entry (hid : id < s.nPipes) (r : SrcRing) : (s.initSrc id r).entry id =
    let e : PipeEntry := { s.entry id with pipe := { s.pipe id with src := some (s.seededSrc id r) } }
    if s.devAlive then e.puts (srcGeometry s.cur r) else e := by
  have hstored := State.setSrc_entry_same (s := ((s.zeroRing r.toRing).noteRead (.block id .srcRdIdx)).noteRead
    (.block id .srcWrIdx)) hid (s.seededSrc id r)
  rw [State.initSrc_eq, State.regWrites_entry (by simpa using hid), hstored]
  rfl

/-- The source half stores the seeded ring, and a device that responds takes the geometry. -/
theorem State.initSrcIf_entry (hid : id < s.nPipes) : (s.initSrcIf id).entry id = { s.entry id with
    pipe := { s.pipe id with src := (s.pipe id).src.map (s.seededSrc id) }
    cb := if s.devAlive then { (s.entry id).cb with
        srcBase := ((s.pipe id).src.map fun r => r.base).getD (s.entry id).cb.srcBase
        srcSize := ((s.pipe id).src.map fun r => r.cap).getD (s.entry id).cb.srcSize
        srcWmLow := ((s.pipe id).src.map fun _ => low32 s.cur.x1).getD (s.entry id).cb.srcWmLow
        srcWmHigh := ((s.pipe id).src.map fun _ => low32 s.cur.x2).getD (s.entry id).cb.srcWmHigh }
      else (s.entry id).cb } := by
  unfold State.initSrcIf
  cases hsrc : (s.pipe id).src with
  | none =>
    have hpipe : s.pipe id = { s.pipe id with src := none } := by rw [← hsrc]
    simp only [Option.map_none, Option.getD_none, ite_self, ← hpipe]
    rfl
  | some r =>
    refine (State.initSrc_entry hid r).trans ?_
    by_cases halive : s.devAlive = true
    · simp only [if_pos halive]
      rfl
    · simp only [if_neg halive]
      rfl

/-- One destination ring is stored with its seeds, then the device takes its geometry where it responds. -/
theorem State.initDst_entry (hid : id < s.nPipes) (r : Ring) : (s.initDst id r).entry id =
    let e : PipeEntry := { s.entry id with pipe := { s.pipe id with dst := some (s.seededDst id r) } }
    if s.devAlive then e.puts (dstGeometry s.cur r) else e := by
  have hstored := State.setDst_entry_same (s := ((s.zeroRing r).noteRead (.block id .dstRdIdx)).noteRead
    (.block id .dstWrIdx)) hid (s.seededDst id r)
  rw [State.initDst_eq, State.regWrites_entry (by simpa using hid), hstored]
  rfl

/-- The destination half stores the seeded ring, and a device that responds takes the geometry and, by `DST_SIZE`, seeds its
own state (R216). -/
theorem State.initDstIf_entry (hid : id < s.nPipes) : (s.initDstIf id).entry id = {
    pipe := { s.pipe id with dst := (s.pipe id).dst.map (s.seededDst id) }
    cb := if s.devAlive then { (s.entry id).cb with
        dstBase := ((s.pipe id).dst.map fun r => r.base).getD (s.entry id).cb.dstBase
        dstSize := ((s.pipe id).dst.map fun r => r.cap).getD (s.entry id).cb.dstSize
        dstWmLow := ((s.pipe id).dst.map fun _ => low32 s.cur.x3).getD (s.entry id).cb.dstWmLow
        dstWmHigh := ((s.pipe id).dst.map fun _ => low32 s.cur.x4).getD (s.entry id).cb.dstWmHigh }
      else (s.entry id).cb
    dev := if s.devAlive then
        ((s.pipe id).dst.map fun r => (s.entry id).dev.onWrite (s.entry id).cb r.cap .dstSize).getD (s.entry id).dev
      else (s.entry id).dev } := by
  unfold State.initDstIf
  cases hdst : (s.pipe id).dst with
  | none =>
    have hpipe : s.pipe id = { s.pipe id with dst := none } := by rw [← hdst]
    simp only [Option.map_none, Option.getD_none, ite_self, ← hpipe]
    rfl
  | some r =>
    refine (State.initDst_entry hid r).trans ?_
    by_cases halive : s.devAlive = true
    · simp only [if_pos halive]
      rfl
    · simp only [if_neg halive]
      rfl

/-! ### `init_pipe` (R192, R193) -/

/-- Both halves. -/
def State.initRings (s : State) (id : Nat) : State := (s.initSrcIf id).initDstIf id

theorem PipeFrame.initRings (h : PipeFrame id s t) : PipeFrame id s (t.initRings id) :=
  PipeFrame.initDstIf (PipeFrame.initSrcIf h)

/-- The destination half seeds from the registers as they were: the source half writes others. -/
theorem State.initRings_entry (hid : id < s.nPipes) : (s.initRings id).entry id = {
    pipe := { s.pipe id with
      src := (s.pipe id).src.map (s.seededSrc id)
      dst := (s.pipe id).dst.map (s.seededDst id) }
    cb := if s.devAlive then { (s.entry id).cb with
        srcBase := ((s.pipe id).src.map fun r => r.base).getD (s.entry id).cb.srcBase
        srcSize := ((s.pipe id).src.map fun r => r.cap).getD (s.entry id).cb.srcSize
        srcWmLow := ((s.pipe id).src.map fun _ => low32 s.cur.x1).getD (s.entry id).cb.srcWmLow
        srcWmHigh := ((s.pipe id).src.map fun _ => low32 s.cur.x2).getD (s.entry id).cb.srcWmHigh
        dstBase := ((s.pipe id).dst.map fun r => r.base).getD (s.entry id).cb.dstBase
        dstSize := ((s.pipe id).dst.map fun r => r.cap).getD (s.entry id).cb.dstSize
        dstWmLow := ((s.pipe id).dst.map fun _ => low32 s.cur.x3).getD (s.entry id).cb.dstWmLow
        dstWmHigh := ((s.pipe id).dst.map fun _ => low32 s.cur.x4).getD (s.entry id).cb.dstWmHigh }
      else (s.entry id).cb
    dev := if s.devAlive then
        ((s.pipe id).dst.map fun r => (s.entry id).dev.onWrite (s.entry id).cb r.cap .dstSize).getD (s.entry id).dev
      else (s.entry id).dev } := by
  have hframe := PipeFrame.initSrcIf (PipeFrame.refl id s)
  have hsrc := State.initSrcIf_entry hid
  have ⟨⟨_, halive, _⟩, _⟩ := hframe
  have hseed : (s.initSrcIf id).seededDst id = s.seededDst id := by
    funext r
    simp only [State.seededDst, State.regRead, State.regValue, halive, hsrc]
    split <;> rfl
  rw [State.initRings, State.initDstIf_entry ((PipeFrame.nPipes hframe).symm ▸ hid), halive, State.initSrcIf_cur, hseed,
    State.pipe, hsrc]
  split <;> rfl

/-- The bytes of the pipe's rings are zeroed, the source ring's first. -/
theorem State.initRings_mem (hid : id < s.nPipes) :
    (s.initRings id).mem = Memory.zeroRegions s.mem (s.pipe id).regions := by
  have hdst : ((s.initSrcIf id).pipe id).dst = (s.pipe id).dst :=
    congrArg (fun e => e.pipe.dst) (State.initSrcIf_entry hid)
  rw [State.initRings, State.initDstIf_mem, State.initSrcIf_mem, hdst, Pipe.regions]
  exact (List.foldl_append ..).symm

theorem State.read_initRings (hid : id < s.nPipes) (c : Nat) : Memory.read (s.initRings id).mem c =
    if ∃ g ∈ (s.pipe id).regions, g.1 ≤ c ∧ c < g.1 + g.2 then 0#8 else Memory.read s.mem c := by
  rw [State.initRings_mem hid, Memory.read_zeroRegions]

theorem State.initRings_cur (s : State) (id : Nat) : (s.initRings id).cur = s.cur :=
  (State.initDstIf_cur _ id).trans (State.initSrcIf_cur s id)

/-- The lock is not looked at. -/
theorem State.acquire_initRings (s : State) (id : Nat) : s.acquire.initRings id = (s.initRings id).acquire := by
  rw [State.initRings, State.acquire_initSrcIf, State.acquire_initDstIf]
  rfl

/-- `init_pipe` on an allocated pipe whose rings lie in device-bus space. -/
theorem exec_initPipe (h : PipeReady nl p s) (hops : initOperandsOk s.cur = true)
    (hphase : (s.pipe p.toNat).phase ≠ .unallocated) (hspace : s.ringsInSpace (s.pipe p.toNat) = true) :
    exec (.initPipe nl p) s = .next (((s.initRings p.toNat).setPhase p.toNat .active).returnStatus .ok) := by
  have hmay := ((PipeFrame.refl p.toNat s).initRings.setPhase .active).mayEnter h.1
  rw [← hmay.acquire_finish]
  refine (PipeReady.locked h rfl hops _).trans ((if_neg hphase).trans ((if_pos hspace).trans ?_))
  exact congrArg (fun u => Host.Outcome.next ((u.setPhase p.toNat .active).finish nl .ok))
    (State.acquire_initRings s p.toNat)

/-- Settles O38: the two halves give the entry and the memory of the pipe, and the pipe becomes Active. -/
theorem initPipeZeroesSeedsAndPublishes : Obligations.InitPipeZeroesSeedsAndPublishes := by
  refine ⟨fun _ _ => rfl, fun s nl p h hops hphase hspace => ?_⟩
  intro id cb rd
  have ⟨henter, hid⟩ := h
  have hinit := (PipeFrame.refl id s).initRings
  have hframe := hinit.setPhase .active
  have hentry : ((s.initRings id).setPhase id .active).entry id = ((s.initRings id).entry id).withPhase .active :=
    State.setPhase_entry_same ((PipeFrame.nPipes hinit).symm ▸ hid) .active
  rw [State.initRings_entry hid] at hentry
  have hread := State.read_initRings hid
  refine ⟨_, exec_initPipe h hops hphase hspace, hframe.returnStatus .ok, ?_, congrArg PipeEntry.pipe hentry,
    fun halive => ?_, fun hdead => ?_, fun g hg c hlow hhigh => ?_, fun c hout => ?_⟩
  · exact (State.returnStatus_cur (hframe.mayEnter henter).1 .ok).trans
      (congrArg (fun q : Port => { q with x0 := 0 }) (State.initRings_cur s id))
  · simp only [if_pos halive] at hentry
    refine ⟨congrArg PipeEntry.cb hentry, fun r hr hcap => ?_, fun hnone => ?_⟩
    · refine (congrArg PipeEntry.dev hentry).trans ?_
      rw [Option.mem_def.1 hr]
      exact if_pos ⟨rfl, hcap⟩
    · refine (congrArg PipeEntry.dev hentry).trans ?_
      rw [hnone]
      rfl
  · simp only [if_neg (Bool.not_eq_true _ ▸ hdead)] at hentry
    exact ⟨(congrArg PipeEntry.cb hentry).trans rfl, (congrArg PipeEntry.dev hentry).trans rfl⟩
  · exact (hread c).trans (if_pos ⟨g, hg, hlow, hhigh⟩)
  · exact (hread c).trans (if_neg fun ⟨g, hg, hlow, hhigh⟩ => by have := hout g hg; omega)

end

end Sys2Proof.Machine
end

section
/-! `alloc_pipe` (spec/46_lifecycle.md R190, R191, R196): what asking for one side ends in, by the allocator's answer, and the
operation as its two sides in turn. -/

namespace Sys2Proof.Machine

section
variable {s : State} {n : Nat} {taken : List Region} {nl : Bool} {p : PipeField}

/-! ### One answer of the allocator (R17) -/

/-- The next answer is the head of the list, else a free value; it is used up. -/
theorem State.nextAnswer_eq (s : State) : s.nextAnswer =
    (s.allocs.headD (Config.freeAnswer s.draws),
      { s with allocs := s.allocs.tail, draws := if s.allocs = [] then s.draws + 1 else s.draws }) := by
  unfold State.nextAnswer
  cases s.allocs with
  | nil => simp
  | cons a as => simp

/-- The state after `DmaAlloc(size)` was asked and answered. -/
def State.asked (s : State) (size : Nat) : State := ((s.emit (.dmaAlloc size)).nextAnswer).2

theorem State.asked_eq (s : State) (size : Nat) : s.asked size = { s with
    allocs := s.allocs.tail
    draws := if s.allocs = [] then s.draws + 1 else s.draws
    trace := .dmaAlloc size :: s.trace } := by
  rw [State.asked, State.nextAnswer_eq]
  rfl

/-- Asking records an output, which does not decide the answer. -/
theorem State.emit_nextAnswer (s : State) (size : Nat) :
    (s.emit (.dmaAlloc size)).nextAnswer = (firstAnswer s, s.asked size) := by
  rw [State.asked, firstAnswer, State.nextAnswer_eq, State.nextAnswer_eq]
  rfl

theorem firstAnswer_acquire (s : State) : firstAnswer s.acquire = firstAnswer s := by
  rw [firstAnswer, firstAnswer, State.nextAnswer_eq, State.nextAnswer_eq]
  rfl

/-! ### One side of a pipe (R191) -/

/-- A misaligned region breaks the allocator's contract (R72). -/
theorem State.allocSide_of_misaligned {va : Nat} {da : U32} {contents : List (Nat × Byte)} (hn : n ≠ 0)
    (hanswer : firstAnswer s = .region va da contents) (hda : da.toNat % s.cfg.ringAlign ≠ 0) :
    s.allocSide n taken = .contractBroken := by
  simp [State.allocSide, hn, State.obtainRegion, State.emit_nextAnswer, hanswer, hda]

/-- A region that keeps the contract, seen as the model tests it. -/
theorem KeepsContract.not_broken {c : Config} {da size : Nat} (h : KeepsContract c da size taken) :
    ¬ (da % c.ringAlign ≠ 0 ∨ (taken.any fun g => !disjointRegions (da, size) g) = true) := by
  obtain ⟨halign, hdisj⟩ := h
  rintro (hda | hany)
  · exact hda halign
  · obtain ⟨g, hg, hshared⟩ := List.any_eq_true.1 hany
    simp [hdisj g hg] at hshared

/-- The state after one side was asked for and granted: nothing is asked where there is no region. -/
def State.granted (s : State) : Option NewRegion → State
  | none => s
  | some g => s.asked g.bytes

/-- A side that is granted within the contract and the device's range is got. -/
theorem State.allocSide_of_grants {a : Option NewRegion} (hgrants : Grants n (firstAnswer s) a)
    (hkeeps : ∀ g ∈ a, KeepsContract s.cfg g.da.toNat g.bytes taken ∧ g.da.toNat + g.bytes ≤ s.cfg.devAddrLimit) :
    s.allocSide n taken = .got (s.granted a) a := by
  cases a with
  | none => exact if_pos hgrants
  | some g =>
    obtain ⟨hn, hcap, hanswer⟩ := hgrants
    obtain ⟨hcontract, hrange⟩ := hkeeps g rfl
    rw [NewRegion.bytes, hcap] at hcontract hrange
    rw [State.allocSide, if_neg hn, State.obtainRegion, State.emit_nextAnswer, hanswer]
    refine (if_neg hcontract.not_broken).trans ((if_neg (not_lt.2 hrange)).trans ?_)
    rw [State.granted, NewRegion.bytes, ← hcap]

/-- The state after one side was asked for and failed: a region that left the device's range is given back. -/
def State.denied (s : State) (n : Nat) : State :=
  { s.asked (roundupPow2 n * descSize) with
    trace := releaseOfRefused (firstAnswer s) n ++ (s.asked (roundupPow2 n * descSize)).trace }

/-- A side that fails ends in the denial (R191). -/
theorem State.allocSide_of_failsFor (h : FailsFor s.cfg n (firstAnswer s) taken) :
    s.allocSide n taken = .failed (s.denied n) := by
  obtain ⟨hn, hfail | ⟨va, da, contents, hanswer, hcontract, hrange⟩⟩ := h
  · rw [State.allocSide, if_neg hn, State.obtainRegion, State.emit_nextAnswer, State.denied, hfail]
    rfl
  · rw [State.allocSide, if_neg hn, State.obtainRegion, State.emit_nextAnswer, State.denied, hanswer]
    exact (if_neg hcontract.not_broken).trans (if_pos hrange)

/-! ### What a side leaves in the state: answers used up, outputs recorded -/

theorem State.granted_eq (s : State) (a : Option NewRegion) : s.granted a = { s with
    allocs := s.allocs.drop a.toList.length
    draws := (s.granted a).draws
    trace := (a.map fun g => Event.dmaAlloc g.bytes).toList ++ s.trace } := by
  cases a with
  | none => rfl
  | some g =>
    rw [State.granted, State.asked_eq, ← List.drop_one]
    rfl

theorem State.denied_eq (s : State) (n : Nat) : s.denied n = { s with
    allocs := s.allocs.drop 1
    draws := (s.denied n).draws
    trace := releaseOfRefused (firstAnswer s) n ++ [.dmaAlloc (roundupPow2 n * 12)] ++ s.trace } := by
  rw [State.denied, State.asked_eq, List.drop_one, List.append_assoc]
  rfl

theorem State.releaseNew_eq (s : State) (a : Option NewRegion) : s.releaseNew a =
    { s with trace := (a.map fun g => Event.dmaRelease g.da g.bytes).toList ++ s.trace } := by
  cases a <;> rfl

theorem State.granted_acquire (s : State) (a : Option NewRegion) : s.acquire.granted a = (s.granted a).acquire := by
  cases a with
  | none => rfl
  | some g =>
    rw [State.granted, State.granted, State.asked_eq, State.asked_eq]
    rfl

theorem State.denied_acquire (s : State) (n : Nat) : s.acquire.denied n = (s.denied n).acquire := by
  rw [State.denied, State.denied, State.asked_eq, State.asked_eq, firstAnswer_acquire]
  rfl

theorem State.releaseNew_acquire (s : State) (a : Option NewRegion) :
    s.acquire.releaseNew a = (s.releaseNew a).acquire := by
  cases a <;> rfl

/-- The answer for the destination comes after the one for the source, where there is one (R190). -/
theorem firstAnswer_granted {a : Option NewRegion} {answer : AllocAnswer} (h : Grants n answer a) :
    firstAnswer (s.granted a) = dstAnswer s n := by
  cases a with
  | none => exact (if_pos h).symm
  | some g =>
    obtain ⟨hn, -⟩ := h
    rw [dstAnswer, if_neg hn, firstAnswer, State.granted, State.asked_eq]
    simp only [State.nextAnswer_eq]

/-- The source granted, the destination denied, the source's region given back. -/
theorem State.releaseNew_denied_granted {a : Option NewRegion} {answer : AllocAnswer} (h : Grants n answer a) (m : Nat) :
    ((s.granted a).denied m).releaseNew a = { s with
      allocs := s.allocs.drop (a.toList.length + 1)
      draws := ((s.granted a).denied m).draws
      trace := (a.map fun g => Event.dmaRelease g.da g.bytes).toList ++ releaseOfRefused (dstAnswer s n) m ++
        [.dmaAlloc (roundupPow2 m * 12)] ++ (a.map fun g => Event.dmaAlloc g.bytes).toList ++ s.trace } := by
  rw [State.releaseNew_eq, State.denied_eq, firstAnswer_granted h, State.granted_eq, List.drop_drop]
  simp only [List.append_assoc]

/-! ### `alloc_pipe` as its two sides (R190) -/

/-- How `alloc_pipe` goes on from a side: refused, OutOfMemory after `undo`, or `k`. -/
def Side.andThen (side : Side) (nl : Bool) (undo : State → State) (k : State → Option NewRegion → Outcome) : Outcome :=
  match side with
  | .contractBroken => .refused .allocatorContract
  | .failed t => .next ((undo t).finish nl .outOfMemory)
  | .got t a => k t a

/-- `alloc_pipe` may run and its checks before the allocation pass (R190, R200). -/
abbrev AllocReady (nl : Bool) (p : PipeField) (s : State) : Prop :=
  PipeReady nl p s ∧ allocOperandsOk s.cur = true ∧ (s.pipe p.toNat).phase = .unallocated ∧
  (s.isDiag p.toNat = true → attrInterruptDisabled s.cur.x4 = true)

/-- Legal counts are read whole (R109). -/
theorem low32_counts {x : Port} (h : allocOperandsOk x = true) : (low32 x.x1).toNat = x.x1 ∧ (low32 x.x3).toNat = x.x3 := by
  simp only [allocOperandsOk, Bool.and_eq_true] at h
  obtain ⟨⟨⟨⟨⟨h1, -⟩, h3⟩, -⟩, -⟩, -⟩ := h
  exact ⟨low32_toNat _ h1, low32_toNat _ h3⟩

/-- From the destination side on, with the source side got. -/
def State.allocDst (t : State) (nl : Bool) (id n : Nat) (a : Option NewRegion) (taken : List Region) : Outcome :=
  (t.allocSide n taken).andThen nl (·.releaseNew a) fun v b => .next ((v.createPipe id a b).finish nl .ok)

theorem exec_allocPipe (h : AllocReady nl p s) : exec (.allocPipe nl p) s =
    (s.acquire.allocSide s.cur.x1 s.regions).andThen nl id fun t a =>
      t.allocDst nl p.toNat s.cur.x3 a ((a.map NewRegion.region).toList ++ s.regions) := by
  obtain ⟨hready, hops, hphase, hdiag⟩ := h
  obtain ⟨hx1, hx3⟩ := low32_counts hops
  have hguard : ¬ (s.isDiag p.toNat && !attrInterruptDisabled s.cur.x4) = true := by simpa using hdiag
  refine (PipeReady.locked hready rfl hops _).trans ((if_neg (not_not.2 hphase)).trans ((if_neg hguard).trans ?_))
  rw [← hx1, ← hx3]
  rfl

/-- The source side is granted within the contract and the device's range, or not asked for. -/
abbrev SrcGranted (a : Option NewRegion) (s : State) : Prop :=
  Grants s.cur.x1 (firstAnswer s) a ∧
  ∀ g ∈ a, KeepsContract s.cfg g.da.toNat g.bytes s.regions ∧ g.da.toNat + g.bytes ≤ s.cfg.devAddrLimit

/-- With the source side got, the rest of `alloc_pipe` is the destination side. -/
theorem exec_allocPipe_of_srcGranted {a : Option NewRegion} (h : AllocReady nl p s) (ha : SrcGranted a s) :
    exec (.allocPipe nl p) s = (s.granted a).acquire.allocDst nl p.toNat s.cur.x3 a
      ((a.map NewRegion.region).toList ++ s.regions) := by
  obtain ⟨hgrants, hkeeps⟩ := ha
  rw [← firstAnswer_acquire] at hgrants
  rw [exec_allocPipe h, State.allocSide_of_grants (s := s.acquire) hgrants hkeeps, State.granted_acquire]
  rfl

section
variable {a : Option NewRegion}

theorem firstAnswer_srcGranted (ha : SrcGranted a s) : firstAnswer (s.granted a).acquire = dstAnswer s s.cur.x1 :=
  (firstAnswer_acquire _).trans (firstAnswer_granted ha.1)

@[simp] theorem State.granted_cfg (s : State) (a : Option NewRegion) : (s.granted a).cfg = s.cfg := by
  rw [State.granted_eq]

end

/-! ### Failure (R191, R196, R236) -/

theorem exec_allocPipe_of_srcFails (h : AllocReady nl p s)
    (hfails : FailsFor s.cfg s.cur.x1 (firstAnswer s) s.regions) :
    exec (.allocPipe nl p) s = .next ((s.denied s.cur.x1).returnStatus .outOfMemory) := by
  have hmay : MayEnter nl (s.denied s.cur.x1) := by
    rw [State.denied_eq]
    exact h.1.1
  rw [← firstAnswer_acquire] at hfails
  rw [exec_allocPipe h, State.allocSide_of_failsFor (s := s.acquire) hfails, State.denied_acquire,
    ← hmay.acquire_finish]
  rfl

theorem exec_allocPipe_of_dstFails {a : Option NewRegion} (h : AllocReady nl p s) (ha : SrcGranted a s)
    (hfails : FailsFor s.cfg s.cur.x3 (dstAnswer s s.cur.x1) ((a.map NewRegion.region).toList ++ s.regions)) :
    exec (.allocPipe nl p) s =
      .next ((((s.granted a).denied s.cur.x3).releaseNew a).returnStatus .outOfMemory) := by
  have hmay : MayEnter nl (((s.granted a).denied s.cur.x3).releaseNew a) := by
    rw [State.releaseNew_eq, State.denied_eq, State.granted_eq]
    exact h.1.1
  rw [← firstAnswer_srcGranted ha, ← State.granted_cfg s a] at hfails
  rw [exec_allocPipe_of_srcGranted h ha, State.allocDst, State.allocSide_of_failsFor (s := (s.granted a).acquire) hfails,
    State.denied_acquire, ← hmay.acquire_finish, ← State.releaseNew_acquire]
  rfl

/-- Settles O36: the state is as it was but for the answers used, the outputs and the status. -/
theorem allocPipeFailsWhole : Obligations.AllocPipeFailsWhole := by
  intro s nl p hready hops hphase hdiag failsWith
  have h : AllocReady nl p s := ⟨hready, hops, hphase, hdiag⟩
  have hport := hready.1.1
  have hend (used d : Nat) (out : List Event) (hexec : exec (.allocPipe nl p) s = .next
      (({ s with allocs := s.allocs.drop used, draws := d, trace := out ++ s.trace } : State).returnStatus
        .outOfMemory)) : failsWith used out :=
    ⟨_, hexec, ⟨rfl, rfl, rfl, rfl, rfl⟩, ⟨State.setCur_nHosts _ _, fun k hk => State.setCur_portAt_other _ _ k hk⟩,
      State.returnStatus_cur hport .outOfMemory, rfl, rfl, rfl, rfl⟩
  refine ⟨fun hfails => hend _ (s.denied s.cur.x1).draws _ ?_,
    fun a hgrants hkeeps hfails => hend _ ((s.granted a).denied s.cur.x3).draws _ ?_⟩
  · rw [exec_allocPipe_of_srcFails h hfails]
    exact congrArg (fun t => Host.Outcome.next (t.returnStatus .outOfMemory)) (State.denied_eq s s.cur.x1)
  · rw [exec_allocPipe_of_dstFails h ⟨hgrants, hkeeps⟩ hfails]
    exact congrArg (fun t => Host.Outcome.next (t.returnStatus .outOfMemory))
      (State.releaseNew_denied_granted hgrants s.cur.x3)

/-! ### Success (R190, R191) -/

section
variable (s : State) (id : Nat) (a b : Option NewRegion)

theorem State.createPipe_eq : s.createPipe id a b =
    { s.setPipe id (allocatedPipe s.cur (a.map (freshSrcRing · s.draws)) (b.map (freshRing · (s.draws + 3)))) with
      mem := ((s.installRegion a).installRegion b).mem
      draws := s.draws + 5 } := by
  cases a <;> cases b <;> rfl

theorem State.createPipe_acquire : s.acquire.createPipe id a b = (s.createPipe id a b).acquire := by
  cases a <;> cases b <;> rfl

/-- A new pipe changes its own entry, memory and the free values drawn. -/
theorem State.createPipe_frame : SameGlobals s (s.createPipe id a b) ∧ OtherPortsSame s (s.createPipe id a b) ∧
    OtherPipesSame id s (s.createPipe id a b) := by
  rw [State.createPipe_eq]
  obtain ⟨hglobals, -, hports, hpipes⟩ := (PipeFrame.refl id s).setPipe
    (allocatedPipe s.cur (a.map (freshSrcRing · s.draws)) (b.map (freshRing · (s.draws + 3))))
  exact ⟨hglobals, hports, hpipes⟩

theorem State.createPipe_entry (hid : id < s.nPipes) : (s.createPipe id a b).entry id = { s.entry id with
    pipe := allocatedPipe s.cur (a.map (freshSrcRing · s.draws)) (b.map (freshRing · (s.draws + 3))) } := by
  rw [State.createPipe_eq]
  exact (State.setPipe_entry s id id _).trans (if_pos ⟨rfl, hid⟩)

theorem State.read_installRegion_outside {c : Nat} (hout : ∀ g ∈ a, c < g.da.toNat ∨ g.da.toNat + g.bytes ≤ c) :
    Memory.read (s.installRegion a).mem c = Memory.read s.mem c := by
  cases a with
  | none => rfl
  | some g => exact Memory.read_install_outside _ _ _ _ _ (hout g rfl)

theorem State.read_createPipe_outside {c : Nat}
    (hout : ∀ g, (g ∈ a ∨ g ∈ b) → c < g.da.toNat ∨ g.da.toNat + g.bytes ≤ c) :
    Memory.read (s.createPipe id a b).mem c = Memory.read s.mem c := by
  rw [State.createPipe_eq]
  exact (State.read_installRegion_outside _ b fun g hg => hout g (.inr hg)).trans
    (State.read_installRegion_outside s a fun g hg => hout g (.inl hg))

theorem State.createPipe_cur : (s.createPipe id a b).cur = s.cur := by
  rw [State.createPipe_eq]
  rfl

theorem State.createPipe_allocs : (s.createPipe id a b).allocs = s.allocs := by
  rw [State.createPipe_eq]
  rfl

end

/-- The capacity of a granted ring, as a 32-bit word, is the rounded-up count (R10). -/
theorem toNat_cap_of_grants {a : Option NewRegion} {answer : AllocAnswer} (h : Grants n answer a) (hn : n ≤ 2 ^ 31) :
    ∀ g ∈ a, (BitVec.ofNat 32 g.cap).toNat = roundupPow2 n := by
  rintro g rfl
  obtain ⟨-, hcap, -⟩ := h
  rw [hcap, roundupPow2_eq_two_pow_clog n hn, BitVec.toNat_ofNat]
  exact Nat.mod_eq_of_lt (two_pow_lt_word (Nat.lt_succ_of_le (Nat.clog_le_of_le_pow hn)))

/-- Two sides granted use up one answer for each region, record outputs, and change nothing else. -/
theorem State.granted_granted (s : State) (a b : Option NewRegion) : ∃ d tr, (s.granted a).granted b =
    { s with allocs := s.allocs.drop (a.toList.length + b.toList.length), draws := d, trace := tr } := by
  rw [State.granted_eq, State.granted_eq, List.drop_drop]
  exact ⟨_, _, rfl⟩

theorem exec_allocPipe_of_granted {a b : Option NewRegion} (h : AllocReady nl p s) (ha : SrcGranted a s)
    (hgrants : Grants s.cur.x3 (dstAnswer s s.cur.x1) b)
    (hkeeps : ∀ g ∈ b, KeepsContract s.cfg g.da.toNat g.bytes ((a.map NewRegion.region).toList ++ s.regions) ∧
      g.da.toNat + g.bytes ≤ s.cfg.devAddrLimit) :
    exec (.allocPipe nl p) s =
      .next ((((s.granted a).granted b).createPipe p.toNat a b).returnStatus .ok) := by
  have hmay : MayEnter nl (((s.granted a).granted b).createPipe p.toNat a b) := by
    obtain ⟨d, tr, e⟩ := State.granted_granted s a b
    rw [e, State.createPipe_eq]
    exact h.1.1
  rw [← firstAnswer_srcGranted ha] at hgrants
  rw [← State.granted_cfg s a] at hkeeps
  rw [exec_allocPipe_of_srcGranted h ha, State.allocDst,
    State.allocSide_of_grants (s := (s.granted a).acquire) hgrants hkeeps, State.granted_acquire,
    ← hmay.acquire_finish, ← State.createPipe_acquire]
  rfl

/-- Settles O35: both sides are got, and the new pipe is made of fresh rings in their regions. -/
theorem allocPipeCreatesRings : Obligations.AllocPipeCreatesRings := by
  refine ⟨fun _ _ => rfl, fun s nl p a b hready hops hphase hdiag hsrc hdst hkeepsSrc hkeepsDst => ?_⟩
  intro id
  have hexec := exec_allocPipe_of_granted ⟨hready, hops, hphase, hdiag⟩ ⟨hsrc, hkeepsSrc⟩ hdst hkeepsDst
  obtain ⟨⟨hport, _⟩, hid⟩ := hready
  obtain ⟨hmax1, hmax3⟩ := counts_le_of_allocOperandsOk hops
  obtain ⟨hx1, hx3⟩ := low32_counts hops
  rw [hx1] at hmax1
  rw [hx3] at hmax3
  obtain ⟨d, tr, e⟩ := State.granted_granted s a b
  rw [e] at hexec
  obtain ⟨hglobals, ⟨hhosts, hports⟩, hpipes⟩ := State.createPipe_frame
    { s with allocs := s.allocs.drop (a.toList.length + b.toList.length), draws := d, trace := tr } id a b
  refine ⟨_, a.map (freshSrcRing · d), b.map (freshRing · (d + 3)), hexec, hglobals,
    ⟨(State.setCur_nHosts _ _).trans hhosts, fun k hk => (State.setCur_portAt_other _ _ k ?_).trans (hports k hk)⟩,
    hpipes, ?_, State.createPipe_entry _ id a b hid, fun ha => ha ▸ rfl, fun hb => hb ▸ rfl, fun g hg => ?_,
    fun g hg => ?_, State.createPipe_allocs _ id a b, fun c hout => ?_⟩
  · rw [State.createPipe_eq]
    exact hk
  · rw [State.returnStatus_cur (by rw [State.createPipe_eq]; exact hport), State.createPipe_cur]
    rfl
  · exact ⟨freshSrcRing g d, hg ▸ rfl, toNat_cap_of_grants hsrc hmax1 g hg, rfl, rfl, rfl⟩
  · exact ⟨freshRing g (d + 3), hg ▸ rfl, toNat_cap_of_grants hdst hmax3 g hg, rfl, rfl, rfl⟩
  · exact State.read_createPipe_outside _ id a b hout

/-! ### Refusals (R72, R190, R192, R200) -/

/-- The diagnostic pipe is the last one. -/
theorem State.isDiag_iff {id : Nat} (hid : id < s.nPipes) : s.isDiag id = true ↔ id = s.nPipes - 1 := by
  rw [State.isDiag, decide_eq_true_iff]
  omega

/-- Settles O37: the checks of each operation come before its work, in the model's order. -/
theorem lifecycleCallsOutOfPhaseAreRefused : Obligations.LifecycleCallsOutOfPhaseAreRefused := by
  intro s nl p hready id
  have ⟨_, hid⟩ := hready
  have hready' (hops : allocOperandsOk s.cur = true) (hphase : (s.pipe id).phase = .unallocated)
      (hdiag : id = s.nPipes - 1 → s.cur.x4.testBit 0 = true) : AllocReady nl p s :=
    ⟨hready, hops, hphase, fun hlast => hdiag ((State.isDiag_iff hid).1 hlast)⟩
  refine ⟨fun hops hphase => ?_, fun hops hphase hlast hbit => ?_, ?_, ?_, fun hops hphase => ?_⟩
  · exact (PipeReady.locked hready rfl hops _).trans (if_pos hphase)
  · have hguard : (s.isDiag id && !attrInterruptDisabled s.cur.x4) = true := by
      simpa [attrInterruptDisabled, hbit] using (State.isDiag_iff hid).2 hlast
    exact (PipeReady.locked hready rfl hops _).trans ((if_neg (not_not.2 hphase)).trans (if_pos hguard))
  · intro va da contents hops hphase hdiag hn hanswer hda
    rw [← firstAnswer_acquire] at hanswer
    rw [exec_allocPipe (hready' hops hphase hdiag), State.allocSide_of_misaligned (s := s.acquire) hn hanswer hda]
    rfl
  · intro a va da contents hops hphase hdiag hgrants hkeeps hn hanswer hda
    rw [← firstAnswer_srcGranted ⟨hgrants, hkeeps⟩] at hanswer
    rw [← State.granted_cfg s a] at hda
    rw [exec_allocPipe_of_srcGranted (hready' hops hphase hdiag) ⟨hgrants, hkeeps⟩, State.allocDst,
      State.allocSide_of_misaligned (s := (s.granted a).acquire) hn hanswer hda]
    rfl
  · exact (PipeReady.locked hready rfl hops _).trans (if_pos hphase)

end

end Sys2Proof.Machine
end

section
/-! The diagnostic pipe and the lock's owner through every step (spec/47_diagnostic_access.md R200, spec/10_state.md R33). -/

namespace Sys2Proof.Machine

section
variable {s t : State}

/-! ### The diagnostic pipe (R200) -/

/-- The pipes decide, and nothing else of the state. -/
theorem DiagOk.of_pipes_eq (hs : DiagOk s) (hn : t.nPipes = s.nPipes) (h : ∀ id, t.pipe id = s.pipe id) : DiagOk t := by
  intro id hid hdiag hphase
  rw [h] at hphase ⊢
  rw [hn] at hid
  exact hs id hid (by rwa [State.isDiag, hn] at hdiag) hphase

/-- One pipe written: only where it is the diagnostic one does it have to be silent. -/
theorem DiagOk.setPipe (hs : DiagOk s) (id : Nat) {p : Pipe}
    (hp : id < s.nPipes → s.isDiag id = true → p.phase ≠ .unallocated → p.interruptDisabled = true) :
    DiagOk (s.setPipe id p) := by
  intro j hj hdiag hphase
  rw [State.setPipe_nPipes] at hj
  rw [State.isDiag, State.setPipe_nPipes] at hdiag
  rw [State.setPipe_pipe] at hphase ⊢
  split
  · next h =>
    rw [if_pos h] at hphase
    exact hp h.2 (h.1 ▸ hdiag) hphase
  · next h =>
    rw [if_neg h] at hphase
    exact hs j hj hdiag hphase

/-- `alloc_pipe` checks the diagnostic pipe (R200); ring updates and phase changes keep `interrupt_disabled`, and
`free_pipe` leaves the pipe Unallocated. -/
theorem Change.diagOk (h : Change s t) (hs : DiagOk s) : DiagOk t := by
  cases h with
  | register id f v _ => exact hs.of_pipes_eq (s.regWrite_nPipes _ v) fun j => s.regWrite_pipe id j f v
  | device id f g _ => exact hs.of_pipes_eq (s.deviceWrite_nPipes id f g) fun j => s.deviceWrite_pipe id j f g
  | srcRing id | dstRing id => exact hs.setPipe id (hs id)
  | phase id ph hold _ => exact hs.setPipe id fun hid hdiag _ => hs id hid hdiag hold
  | create id d src dst _ hdiag _ _ => exact hs.setPipe id fun _ hid _ => hdiag hid
  | free id _ => exact hs.setPipe id fun _ _ hphase => absurd rfl hphase
  | _ => exact hs

/-! ### The lock's owner (R33) -/

/-- Only a port of the block takes the lock. -/
theorem Change.lockOk (h : Change s t) (hs : LockOk s) : LockOk t := by
  have hhosts := h.nHosts
  cases h with
  | acquire hport =>
    intro h hh
    cases hh
    exact hport
  | release => exact nofun
  | progress | operand =>
    intro h hh
    rw [hhosts]
    exact hs h hh
  | _ => exact hs

/-- Settles O56: each elementary change keeps both. -/
theorem stepKeepsDiagnosticPipeSilent : Obligations.StepKeepsDiagnosticPipeSilent := fun _ _ hdiag hlock h =>
  ⟨(step_changes h).keeps (fun _ _ => Change.diagOk) hdiag, (step_changes h).keeps (fun _ _ => Change.lockOk) hlock⟩

end

end Sys2Proof.Machine
end

section
/-! The device's own moves and the environment (spec/49_device_agent.md R217 to R225, R270). Each device move ends in one
`State.deviceWrite`, and what that leaves alone is said once (`PipeFrame.deviceWrite`, `DeviceFrame.deviceWrite`). -/

namespace Sys2Proof.Machine

section
variable {s t u : State} {id : Nat} {f : CtrlBlock → CtrlBlock} {g : DeviceState → DeviceState}

/-! ### One device write -/

theorem PipeFrame.deviceWrite (h : PipeFrame id s t) (f : CtrlBlock → CtrlBlock) (g : DeviceState → DeviceState) :
    PipeFrame id s (t.deviceWrite id f g) := h.updEntry _

theorem State.deviceWrite_entry_same (hid : id < s.nPipes) (f : CtrlBlock → CtrlBlock) (g : DeviceState → DeviceState) :
    (s.deviceWrite id f g).entry id = { s.entry id with cb := f (s.entry id).cb, dev := g (s.entry id).dev } :=
  (s.deviceWrite_entry id id f g).trans (if_pos ⟨rfl, hid⟩)

/-! ### `dev_src_complete` (R217) -/

theorem State.srcCompleteEnabled_iff (hid : id < s.nPipes) : s.srcCompleteEnabled id = true ↔
    (s.entry id).cb.srcSize ≠ 0#32 ∧ (s.entry id).cb.srcRdIdx ≠ (s.entry id).cb.srcWrIdx := by
  simp [State.srcCompleteEnabled, hid]

/-- The state after a `dev_src_complete` that is enabled. -/
def State.srcCompleted (s : State) (id : Nat) : State :=
  (s.emit (.devRead id (descAddr (s.entry id).cb.srcBase (s.entry id).cb.srcRdIdx))).deviceWrite id
    (fun c => { c with srcRdIdx := increment (c.srcSize - 1#32) (s.entry id).cb.srcRdIdx })
    (fun d => { d with ccPending := true })

theorem State.srcCompleted_entry (hid : id < s.nPipes) : (s.srcCompleted id).entry id = { s.entry id with
    cb := { (s.entry id).cb with srcRdIdx := increment ((s.entry id).cb.srcSize - 1#32) (s.entry id).cb.srcRdIdx }
    dev := { (s.entry id).dev with ccPending := true } } :=
  State.deviceWrite_entry_same (s := s.emit _) hid _ _

theorem PipeFrame.srcCompleted (h : PipeFrame id s t) : PipeFrame id s (t.srcCompleted id) := (h.emit _).deviceWrite _ _

theorem devSrcComplete_of_enabled (h : s.srcCompleteEnabled id = true)
    (hslot : s.slotInSpace (s.entry id).cb.srcBase (s.entry id).cb.srcRdIdx = true) :
    devSrcComplete id s = .next (s.srcCompleted id) := (if_pos h).trans (if_pos hslot)

theorem devSrcComplete_of_not_enabled (h : ¬ s.srcCompleteEnabled id = true) : devSrcComplete id s = .next s := if_neg h

/-- Settles O48: an enabled move is one device write after the read of the descriptor. -/
theorem devSrcCompleteAdvancesIndex : Obligations.DevSrcCompleteAdvancesIndex := by
  intro s id rest hin hid e
  rw [step_of_inputs hin]
  have henabled := State.srcCompleteEnabled_iff (s := { s with inputs := rest }) hid
  refine ⟨fun hsize hidx hslot => ?_, fun hoff => ?_⟩
  · exact ⟨_, devSrcComplete_of_enabled (henabled.2 ⟨hsize, hidx⟩) hslot, (PipeFrame.refl id _).srcCompleted, rfl, rfl, rfl,
      State.srcCompleted_entry hid⟩
  · refine devSrcComplete_of_not_enabled fun h => ?_
    obtain ⟨hsize, hidx⟩ := henabled.1 h
    exact hoff.elim hsize hidx

/-! ### `dev_dst_write_len` (R218) -/

theorem State.dstWriteLenEnabled_iff (hid : id < s.nPipes) (len : U16) : s.dstWriteLenEnabled id len = true ↔
    (s.entry id).cb.dstSize ≠ 0#32 ∧ (s.entry id).dev.dstLenIdx ≠ (s.entry id).cb.dstWrIdx ∧ len ≠ 0#16 := by
  simp [State.dstWriteLenEnabled, hid, and_assoc]

theorem PipeFrame.deviceFill (h : PipeFrame id s t) (base i : U32) (len upper : U16) (flags : Option U32) :
    PipeFrame id s (t.deviceFill base i len upper flags) := h

/-- The stored fields are read back; the flags word shares no byte with the length word (R100). -/
theorem State.deviceFill_fields (s : State) (base i : U32) (len upper : U16) (flags : Option U32) :
    Memory.read4 (s.deviceFill base i len upper flags).mem (descAddr base i + 4) = upper ++ len ∧
    ∀ f, flags = some f → Memory.read4 (s.deviceFill base i len upper flags).mem (descAddr base i + 8) = f := by
  cases flags with
  | none => exact ⟨Memory.read4_write4_same _ _ _, nofun⟩
  | some f =>
    refine ⟨?_, fun f' hf => ?_⟩
    · exact (Memory.read4_write4_other _ _ _ _ (.inl le_rfl)).trans (Memory.read4_write4_same _ _ _)
    · cases hf
      exact Memory.read4_write4_same _ _ _

/-- Nothing but the length word changes, or the two words after the address word. -/
theorem State.deviceFill_sameMemoryOutside (s : State) (base i : U32) (len upper : U16) (flags : Option U32) :
    SameMemoryOutside (descAddr base i + 4) (if flags.isSome then 8 else 4) s (s.deviceFill base i len upper flags) := by
  intro b hb
  cases flags with
  | none => exact Memory.read_write4_outside _ _ _ _ hb
  | some f =>
    have hb' : b < descAddr base i + 4 ∨ descAddr base i + 4 + 8 ≤ b := hb
    have hlen : b < lenWordAt base i ∨ lenWordAt base i + 4 ≤ b := by unfold lenWordAt; omega
    have hflags : b < flagsWordAt base i ∨ flagsWordAt base i + 4 ≤ b := by unfold flagsWordAt; omega
    exact (Memory.read_write4_outside _ _ _ _ hflags).trans (Memory.read_write4_outside _ _ _ _ hlen)

/-- The state after a `dev_dst_write_len` that is enabled. -/
def State.dstLenWritten (s : State) (id : Nat) (len upper : U16) (flags : Option U32) : State :=
  ((s.emit (.devRead id (addrWordAt (s.entry id).cb.dstBase (s.entry id).dev.dstLenIdx))).deviceFill
    (s.entry id).cb.dstBase (s.entry id).dev.dstLenIdx len upper flags).deviceWrite id (fun c => c)
    (fun d => { d with dstLenIdx := increment ((s.entry id).cb.dstSize - 1#32) (s.entry id).dev.dstLenIdx })

theorem State.dstLenWritten_entry (hid : id < s.nPipes) (len upper : U16) (flags : Option U32) :
    (s.dstLenWritten id len upper flags).entry id = { s.entry id with dev := { (s.entry id).dev with
      dstLenIdx := increment ((s.entry id).cb.dstSize - 1#32) (s.entry id).dev.dstLenIdx } } :=
  State.deviceWrite_entry_same (s := (s.emit _).deviceFill _ _ len upper flags) hid _ _

theorem PipeFrame.dstLenWritten (h : PipeFrame id s t) (len upper : U16) (flags : Option U32) :
    PipeFrame id s (t.dstLenWritten id len upper flags) :=
  ((h.emit _).deviceFill _ _ len upper flags).deviceWrite _ _

theorem devDstWriteLen_of_enabled {len : U16} (h : s.dstWriteLenEnabled id len = true)
    (hslot : s.slotInSpace (s.entry id).cb.dstBase (s.entry id).dev.dstLenIdx = true) (upper : U16)
    (flags : Option U32) : devDstWriteLen id len upper flags s = .next (s.dstLenWritten id len upper flags) :=
  (if_pos h).trans (if_pos hslot)

theorem devDstWriteLen_of_not_enabled {len : U16} (h : ¬ s.dstWriteLenEnabled id len = true) (upper : U16)
    (flags : Option U32) : devDstWriteLen id len upper flags s = .next s := if_neg h

/-- Settles O49: an enabled move fills the slot at `dst_len_idx` and moves that index. -/
theorem devDstWriteLenFillsSlot : Obligations.DevDstWriteLenFillsSlot := by
  intro s id len upper flags rest hin hid e slot
  rw [step_of_inputs hin]
  have henabled := State.dstWriteLenEnabled_iff (s := { s with inputs := rest }) hid len
  refine ⟨fun hsize hidx hlen hslot => ?_, fun hoff => ?_⟩
  · obtain ⟨hread, hreadFlags⟩ := State.deviceFill_fields s e.cb.dstBase e.dev.dstLenIdx len upper flags
    exact ⟨_, devDstWriteLen_of_enabled (henabled.2 ⟨hsize, hidx, hlen⟩) hslot upper flags,
      (PipeFrame.refl id _).dstLenWritten len upper flags, rfl, rfl, State.dstLenWritten_entry hid len upper flags, hread,
      hreadFlags, State.deviceFill_sameMemoryOutside s _ _ len upper flags⟩
  · refine devDstWriteLen_of_not_enabled (fun h => ?_) upper flags
    obtain ⟨hsize, hidx, hlen⟩ := henabled.1 h
    exact hoff.elim hsize fun hoff => hoff.elim hidx hlen

/-! ### `dev_dst_advance`, `dev_raise_cc`, `dev_raise_other` (R219, R221, R222) -/

theorem State.dstAdvanceEnabled_iff (hid : id < s.nPipes) : s.dstAdvanceEnabled id = true ↔
    (s.entry id).cb.dstSize ≠ 0#32 ∧ (s.entry id).cb.dstRdIdx ≠ (s.entry id).cb.dstWrIdx := by
  simp [State.dstAdvanceEnabled, hid]

/-- A word inside a mask has no bit outside it. -/
theorem and_not_eq_zero_of_and_eq_self {m x : U32} (h : m &&& x = m) : m &&& ~~~x = 0#32 := by
  rw [← h, BitVec.and_assoc, BitVec.and_not_self]
  exact BitVec.and_zero

/-- From `s` to `t` the entry of pipe `id` becomes `e`, and nothing else changes. -/
abbrev EntryBecomes (id : Nat) (e : PipeEntry) (s t : State) : Prop :=
  PipeFrame id s t ∧ t.ports = s.ports ∧ t.mem = s.mem ∧ t.trace = s.trace ∧ t.entry id = e

theorem EntryBecomes.deviceWrite (hid : id < s.nPipes) (f : CtrlBlock → CtrlBlock) (g : DeviceState → DeviceState) :
    EntryBecomes id { s.entry id with cb := f (s.entry id).cb, dev := g (s.entry id).dev } s (s.deviceWrite id f g) :=
  ⟨(PipeFrame.refl id s).deviceWrite f g, rfl, rfl, rfl, State.deviceWrite_entry_same hid f g⟩

theorem EntryBecomes.refl (id : Nat) (s : State) : EntryBecomes id (s.entry id) s s :=
  ⟨PipeFrame.refl id s, rfl, rfl, rfl, rfl⟩

/-- Settles O50: each move is one device write where it is enabled, and nothing where it is not. -/
theorem deviceAdvancesAndRaisesStatus : Obligations.DeviceAdvancesAndRaisesStatus := by
  intro s id rest hid e becomes
  have hadvance := State.dstAdvanceEnabled_iff (s := { s with inputs := rest }) hid
  have hsame : EntryBecomes id e { s with inputs := rest } { s with inputs := rest } := EntryBecomes.refl id _
  have hwrite := EntryBecomes.deviceWrite (s := { s with inputs := rest }) hid
  refine ⟨fun hin => ⟨fun hon => ?_, fun hoff => ?_⟩, fun hin => ⟨fun hon => ?_, fun hoff => ?_⟩, fun m hin hm => ?_⟩
  · exact ⟨_, (step_of_inputs hin).trans (if_pos (hadvance.2 hon)), hwrite _ _⟩
  · refine ⟨_, (step_of_inputs hin).trans (if_neg fun h => ?_), hsame⟩
    obtain ⟨hsize, hidx⟩ := hadvance.1 h
    exact hoff.elim hsize hidx
  · exact ⟨_, (step_of_inputs hin).trans (if_pos hon), hwrite _ _⟩
  · exact ⟨_, (step_of_inputs hin).trans (if_neg (ne_true_of_eq_false hoff)), hsame⟩
  · exact ⟨_, (step_of_inputs hin).trans (if_pos (and_not_eq_zero_of_and_eq_self hm)), hwrite _ _⟩

/-! ### What the device never touches (R225) -/

/-- A control block after a device move: only the completion indices and `INT_STATUS` may differ, and no status bit went. -/
abbrev CtrlBlock.DeviceMoved (cb cb' : CtrlBlock) : Prop :=
  cb' = { cb with srcRdIdx := cb'.srcRdIdx, dstRdIdx := cb'.dstRdIdx, intStatus := cb'.intStatus } ∧
  cb.intStatus &&& ~~~cb'.intStatus = 0#32

/-- From `s` to `t` nothing that only the host writes has changed. -/
abbrev DeviceFrame (s t : State) : Prop :=
  t.cfg = s.cfg ∧ t.ports = s.ports ∧ t.lockOwner = s.lockOwner ∧ t.devAlive = s.devAlive ∧ t.allocs = s.allocs ∧
  t.nPipes = s.nPipes ∧ ∀ id, t.pipe id = s.pipe id ∧ (s.entry id).cb.DeviceMoved (t.entry id).cb

theorem DeviceFrame.refl (s : State) : DeviceFrame s s :=
  ⟨rfl, rfl, rfl, rfl, rfl, rfl, fun _ => ⟨rfl, rfl, BitVec.and_not_self _⟩⟩

/-- A write of the device to what it owns; neither a device read nor a filled slot before it shows in the frame. -/
theorem DeviceFrame.deviceWrite (s : State) (id : Nat) (hf : ∀ cb, CtrlBlock.DeviceMoved cb (f cb))
    (g : DeviceState → DeviceState) : DeviceFrame s (s.deviceWrite id f g) := by
  refine ⟨rfl, rfl, rfl, rfl, rfl, s.deviceWrite_nPipes id f g, fun j => ⟨s.deviceWrite_pipe id j f g, ?_⟩⟩
  rw [State.deviceWrite_entry]
  split
  · next h =>
    rw [h.1]
    exact hf _
  · exact ⟨rfl, BitVec.and_not_self _⟩

/-- Raised status bits clear none. -/
theorem and_not_or_eq_zero (x m : U32) : x &&& ~~~(x ||| m) = 0#32 := by
  rw [BitVec.not_or, ← BitVec.and_assoc, BitVec.and_not_self]
  exact BitVec.zero_and

theorem DeviceFrame.devSrcComplete (h : devSrcComplete id s = .next t) : DeviceFrame s t := by
  unfold Machine.devSrcComplete at h
  split at h
  · dsimp only at h
    split at h
    · cases h
      refine DeviceFrame.deviceWrite (s.emit _) id (fun _ => ?_) _
      exact ⟨rfl, BitVec.and_not_self _⟩
    · cases h
  · cases h
    exact .refl s

theorem DeviceFrame.devDstWriteLen {len upper : U16} {flags : Option U32}
    (h : devDstWriteLen id len upper flags s = .next t) : DeviceFrame s t := by
  unfold Machine.devDstWriteLen at h
  split at h
  · dsimp only at h
    split at h
    · cases h
      refine DeviceFrame.deviceWrite ((s.emit _).deviceFill _ _ _ _ _) id (fun _ => ?_) _
      exact ⟨rfl, BitVec.and_not_self _⟩
    · cases h
  · cases h
    exact .refl s

theorem DeviceFrame.devDstAdvance (h : devDstAdvance id s = .next t) : DeviceFrame s t := by
  unfold Machine.devDstAdvance at h
  split at h <;> cases h
  · refine .deviceWrite s id (fun _ => ?_) _
    exact ⟨rfl, BitVec.and_not_self _⟩
  · exact .refl s

theorem DeviceFrame.devRaiseCc (h : devRaiseCc id s = .next t) : DeviceFrame s t := by
  unfold Machine.devRaiseCc at h
  split at h <;> cases h
  · exact .deviceWrite s id (fun _ => ⟨rfl, and_not_or_eq_zero _ _⟩) _
  · exact .refl s

theorem DeviceFrame.devRaiseOther {m : U32} (h : devRaiseOther id m s = .next t) : DeviceFrame s t := by
  unfold Machine.devRaiseOther at h
  split at h <;> cases h
  · exact .deviceWrite s id (fun _ => ⟨rfl, and_not_or_eq_zero _ _⟩) _
  · exact .refl s

/-- Settles O51: every device move writes what the device owns, or nothing. -/
theorem deviceTouchesOnlyItsOwn : Obligations.DeviceTouchesOnlyItsOwn := by
  intro s t a rest hin hdev h
  rw [step_of_inputs hin] at h
  change DeviceFrame { s with inputs := rest } t
  cases a with
  | devSrcComplete => exact .devSrcComplete h
  | devDstWriteLen => exact .devDstWriteLen h
  | devDstAdvance => exact .devDstAdvance h
  | devRaiseCc => exact .devRaiseCc h
  | devRaiseOther => exact .devRaiseOther h
  | writeX | command | advance | callbackReturn | hostStore | envDeviceDies => cases hdev

/-! ### The environment (R223) and in-place stores (R164, R270) -/

theorem State.ringField_iff (s : State) (a : Nat) :
    s.ringField a = true ↔ a % 4 = 0 ∧ ∃ g ∈ s.regions, g.1 ≤ a ∧ a + 4 ≤ g.1 + g.2 := by
  simp [State.ringField]

/-- Settles O52: death is one field, and a store is one field of memory where a ring has that address. -/
theorem outsideMovesChangeOneThing : Obligations.OutsideMovesChangeOneThing := by
  refine ⟨fun s rest hin => step_of_inputs hin, fun s a v rest hin => ⟨fun hring => ?_, fun hnot => ?_⟩⟩
  · exact (step_of_inputs hin).trans (if_pos ((State.ringField_iff _ a).2 hring))
  · exact (step_of_inputs hin).trans (if_neg fun h => hnot ((State.ringField_iff _ a).1 h))

end

end Sys2Proof.Machine
end

section
/-! The two forms of an operation (spec/48_lock.md R209, R210): the work is the same, and it leaves the lock alone until
`leave`. So the nolock form keeps the lock, and the locked form is acquire, the nolock form, release. -/

namespace Sys2Proof.Machine

section
variable {s t u : State} {nl : Bool}

/-! ### What an operation does once it has begun -/

/-- An operation that began in `s` stops in both forms alike, or does the same work in both forms and leaves: `o nl` is what
it answers in form `nl`. -/
inductive LeavesLast (s : State) : (Bool → Outcome) → Prop
  | refused (r : Refusal) : LeavesLast s fun _ => .refused r
  | fault (f : Fault) : LeavesLast s fun _ => .fault f
  | finish {t : State} (h : SameGlobals s t) (st : Status) : LeavesLast s fun nl => .next (t.finish nl st)

/-- Left in the locked form is left in the nolock form, with the lock released. -/
theorem LeavesLast.locked_eq {o : Bool → Outcome} (h : LeavesLast s o) : o false = mapNext State.release (o true) := by
  cases h <;> rfl

/-- The nolock form leaves the lock and the running port as they were. -/
theorem LeavesLast.nolock_keeps {o : Bool → Outcome} (h : LeavesLast s o) (ht : o true = .next t) :
    t.lockOwner = s.lockOwner ∧ t.port = s.port := by
  cases h with
  | refused | fault => cases ht
  | finish h st =>
    obtain ⟨-, -, -, hport, hlock⟩ := h
    cases ht
    exact ⟨hlock, hport⟩

theorem LeavesLast.ite {c : Prop} [Decidable c] {a b : Bool → Outcome} (ha : LeavesLast s a) (hb : LeavesLast s b) :
    LeavesLast s fun nl => if c then a nl else b nl := by
  split
  · exact ha
  · exact hb

theorem LeavesLast.withSrc {id : Nat} {k : SrcRing → Bool → Outcome} (hk : ∀ r, LeavesLast s (k r)) :
    LeavesLast s fun nl => u.withSrc id (k · nl) := by
  unfold State.withSrc
  refine .ite (.refused _) ?_
  cases (u.pipe id).src with
  | none => exact .refused _
  | some r => exact hk r

theorem LeavesLast.withDst {id : Nat} {k : Ring → Bool → Outcome} (hk : ∀ r, LeavesLast s (k r)) :
    LeavesLast s fun nl => u.withDst id (k · nl) := by
  unfold State.withDst
  refine .ite (.refused _) ?_
  cases (u.pipe id).dst with
  | none => exact .refused _
  | some r => exact hk r

theorem LeavesLast.withSlot {base i : U32} {o : Bool → Outcome} (h : LeavesLast s o) :
    LeavesLast s fun nl => u.withSlot base i (o nl) :=
  .ite h (.fault _)

/-! ### Each operation with two forms -/

/-- An operation given by its form: a legal one enters, and then runs a body that leaves last (R210, R238). -/
def EnterBodyLeave (op : Bool → Instr) : Prop :=
  ∃ body : Bool → State → Outcome,
    (∀ nl s, exec (op nl) s = s.locked (op nl) nl (operandsOk (op nl) s.cur) (body nl)) ∧
    ∀ s, LeavesLast s (body · s)

theorem PipeFrame.globals {id : Nat} (h : PipeFrame id s t) : SameGlobals s t := h.1

theorem send_enterBodyLeave (p : PipeField) (g bs : Bool) (tid : TidField) :
    EnterBodyLeave fun nl => .send nl p g bs tid :=
  ⟨_, fun _ _ => rfl, fun s => .withSrc fun r =>
    have hwarn := PipeFrame.warnOversized p.toNat s
    .ite (.refused _) (.ite (.finish hwarn.globals _) (.withSlot (.finish (hwarn.enqueueSend r g bs tid).globals _)))⟩

theorem revertLastGather_enterBodyLeave (p : PipeField) : EnterBodyLeave fun nl => .revertLastGather nl p :=
  ⟨_, fun _ _ => rfl, fun s => .withSrc fun r =>
    have hread := (PipeFrame.refl p.toNat s).noteRead (.block p.toNat .srcWrIdx)
    .ite (.finish (hread.setSrc r.reverted).globals _) (.finish (hread.warn .nothingToRevert p.toNat).globals _)⟩

theorem completedSendNext_enterBodyLeave (p : PipeField) : EnterBodyLeave fun nl => .completedSendNext nl p := by
  refine ⟨_, fun _ _ => rfl, fun s => .withSrc fun r => ?_⟩
  have hread := (PipeFrame.refl p.toNat s).noteRead (.block p.toNat .srcRdIdx)
  have hready {t : State} (ht : PipeFrame p.toNat s t) (r : SrcRing) : LeavesLast s fun nl =>
      if r.hw = r.sw then .next (t.finish nl .notReady)
      else t.withSlot r.base r.sw
        (.next (((t.freeSrcSlot p.toNat r).setX1 (contextResult (r.toRing.context r.sw))).finish nl .ok)) :=
    .ite (.finish ht.globals _) (.withSlot (.finish ((ht.freeSrcSlot r).setX1 _).globals _))
  obtain ⟨-, e⟩ | ⟨-, -, e⟩ | ⟨-, -, e⟩ := State.lazyRefresh_cases s p.toNat r <;> rw [e]
  · exact hready (PipeFrame.refl _ s) r
  · exact .finish hread.globals _
  · exact hready (hread.setSrc _) _

theorem cancelSendNext_enterBodyLeave (p : PipeField) : EnterBodyLeave fun nl => .cancelSendNext nl p :=
  ⟨_, fun _ _ => rfl, fun s => .withSrc fun r =>
    have hframe := PipeFrame.refl p.toNat s
    .ite (.finish hframe.globals _) (.withSlot (.finish ((hframe.freeSrcSlot r).setDrained r s.mem).globals _))⟩

theorem availableSendSlots_enterBodyLeave (p : PipeField) : EnterBodyLeave fun nl => .availableSendSlots nl p :=
  ⟨_, fun _ _ => rfl, fun s => .withSrc fun _ => .finish ((PipeFrame.refl p.toNat s).setX3 _).globals _⟩

theorem rxPostBuf_enterBodyLeave (p : PipeField) : EnterBodyLeave fun nl => .rxPostBuf nl p :=
  ⟨_, fun _ _ => rfl, fun s => .withDst fun _ =>
    .ite (.finish (PipeFrame.refl p.toNat s).globals _) (.withSlot (.finish (PipeFrame.postBuffer s p.toNat _).globals _))⟩

theorem rxUpdateWriteIdx_enterBodyLeave (p : PipeField) : EnterBodyLeave fun nl => .rxUpdateWriteIdx nl p :=
  ⟨_, fun _ _ => rfl, fun s => .withDst fun _ =>
    .ite (.refused _) (.finish ((PipeFrame.refl p.toNat s).storeDst _).globals _)⟩

theorem completedRecvNext_enterBodyLeave (p : PipeField) : EnterBodyLeave fun nl => .completedRecvNext nl p :=
  ⟨_, fun _ _ => rfl, fun s => .withDst fun r =>
    have hframe := PipeFrame.refl p.toNat s
    .withSlot (.ite (.finish hframe.globals _) (.finish (((hframe.freeDstSlot r _).setX1 _).setX3 _).globals _))⟩

theorem revokeRecvNext_enterBodyLeave (p : PipeField) : EnterBodyLeave fun nl => .revokeRecvNext nl p :=
  ⟨_, fun _ _ => rfl, fun s => .withDst fun r =>
    have hframe := PipeFrame.refl p.toNat s
    .ite (.finish hframe.globals _) (.withSlot (.finish (((hframe.freeDstSlot r _).setX1 _).setX2 _).globals _))⟩

theorem availableRecvSlots_enterBodyLeave (p : PipeField) : EnterBodyLeave fun nl => .availableRecvSlots nl p :=
  ⟨_, fun _ _ => rfl, fun s => .withDst fun _ => .finish ((PipeFrame.refl p.toNat s).setX3 _).globals _⟩

theorem initPipe_enterBodyLeave (p : PipeField) : EnterBodyLeave fun nl => .initPipe nl p :=
  ⟨_, fun _ _ => rfl, fun s =>
    .ite (.refused _) (.ite (.finish ((PipeFrame.refl p.toNat s).initRings.setPhase .active).globals _) (.fault _))⟩

theorem deinitPipe_enterBodyLeave (p : PipeField) : EnterBodyLeave fun nl => .deinitPipe nl p := by
  refine ⟨_, fun _ _ => rfl, fun s => .ite (.refused _) ?_⟩
  rw [State.deinitIfs_eq]
  exact .finish (PipeFrame.refl p.toNat s).deinited.globals _

theorem freePipe_enterBodyLeave (p : PipeField) : EnterBodyLeave fun nl => .freePipe nl p :=
  ⟨_, fun _ _ => rfl, fun s => .ite (.refused _) (.finish (PipeFrame.refl p.toNat s).freed.globals _)⟩

theorem SameGlobals.trans (hst : SameGlobals s t) (htu : SameGlobals t u) : SameGlobals s u := by
  obtain ⟨hcfg, halive, hin, hport, hlock⟩ := hst
  obtain ⟨hcfg', halive', hin', hport', hlock'⟩ := htu
  exact ⟨hcfg'.trans hcfg, halive'.trans halive, hin'.trans hin, hport'.trans hport, hlock'.trans hlock⟩

theorem SameGlobals.releaseNew (h : SameGlobals s t) (a : Option NewRegion) : SameGlobals s (t.releaseNew a) := by
  rw [State.releaseNew_eq]
  exact h

theorem SameGlobals.createPipe (h : SameGlobals s t) (id : Nat) (a b : Option NewRegion) :
    SameGlobals s (t.createPipe id a b) :=
  h.trans (State.createPipe_frame t id a b).1

/-- Asking for a region leaves the globals alone, whatever the allocator answers (R17). -/
theorem State.allocSide_globals {n : Nat} {taken : List Region}
    (h : s.allocSide n taken = .failed t ∨ ∃ g, s.allocSide n taken = .got t g) : SameGlobals s t := by
  have hasked (n : Nat) : SameGlobals s ((s.emit (.dmaAlloc n)).nextAnswer).2 := by
    rw [State.nextAnswer_frame]
    exact ⟨rfl, rfl, rfl, rfl, rfl⟩
  obtain ⟨-, e⟩ | ⟨-, v, rfl, e | e | ⟨da, e⟩ | ⟨va, da, contents, e, -⟩⟩ := State.allocSide_cases s n taken <;>
    rw [e] at h <;> obtain h | ⟨g, h⟩ := h <;> cases h
  · exact ⟨rfl, rfl, rfl, rfl, rfl⟩
  · exact hasked _
  · exact hasked _
  · exact hasked _

theorem allocPipe_enterBodyLeave (p : PipeField) : EnterBodyLeave fun nl => .allocPipe nl p := by
  refine ⟨_, fun _ _ => rfl, fun s => .ite (.refused _) (.ite (.refused _) ?_)⟩
  cases hsrc : s.allocSide (low32 s.cur.x1).toNat s.regions with
  | contractBroken => exact .refused _
  | failed t => exact .finish (State.allocSide_globals (.inl hsrc)) _
  | got t a =>
    have ht := State.allocSide_globals (.inr ⟨a, hsrc⟩)
    dsimp only
    cases hdst : t.allocSide (low32 s.cur.x3).toNat ((a.map NewRegion.region).toList ++ s.regions) with
    | contractBroken => exact .refused _
    | failed u => exact .finish ((ht.trans (State.allocSide_globals (.inl hdst))).releaseNew a) _
    | got u b => exact .finish ((ht.trans (State.allocSide_globals (.inr ⟨b, hdst⟩))).createPipe p.toNat a b) _

theorem SameGlobals.writeEnables (value : Nat → U32) (k id : Nat) (s : State) :
    SameGlobals s (State.writeEnables value k id s) := by
  rw [State.writeEnables_frame]
  exact ⟨rfl, rfl, rfl, rfl, rfl⟩

theorem enableInterrupts_enterBodyLeave : EnterBodyLeave .enableInterrupts :=
  ⟨_, fun _ _ => rfl, fun s => .finish (.writeEnables _ _ 0 s) _⟩

theorem disableInterrupts_enterBodyLeave : EnterBodyLeave .disableInterrupts :=
  ⟨_, fun _ _ => rfl, fun s => .finish (.writeEnables _ _ 0 s) _⟩

/-- Every operation with a nolock form is one of these (R106). -/
theorem enterBodyLeave_of_nolock {i : Instr} (h : i.nolock? = some nl) :
    ∃ op, EnterBodyLeave op ∧ op nl = i ∧ op true = nolockForm i := by
  cases i with
  | lock | unlock | servicePipe | serviceAnyPending => cases h
  | send _ p g bs tid => cases h; exact ⟨_, send_enterBodyLeave p g bs tid, rfl, rfl⟩
  | revertLastGather _ p => cases h; exact ⟨_, revertLastGather_enterBodyLeave p, rfl, rfl⟩
  | completedSendNext _ p => cases h; exact ⟨_, completedSendNext_enterBodyLeave p, rfl, rfl⟩
  | cancelSendNext _ p => cases h; exact ⟨_, cancelSendNext_enterBodyLeave p, rfl, rfl⟩
  | availableSendSlots _ p => cases h; exact ⟨_, availableSendSlots_enterBodyLeave p, rfl, rfl⟩
  | rxPostBuf _ p => cases h; exact ⟨_, rxPostBuf_enterBodyLeave p, rfl, rfl⟩
  | rxUpdateWriteIdx _ p => cases h; exact ⟨_, rxUpdateWriteIdx_enterBodyLeave p, rfl, rfl⟩
  | completedRecvNext _ p => cases h; exact ⟨_, completedRecvNext_enterBodyLeave p, rfl, rfl⟩
  | revokeRecvNext _ p => cases h; exact ⟨_, revokeRecvNext_enterBodyLeave p, rfl, rfl⟩
  | availableRecvSlots _ p => cases h; exact ⟨_, availableRecvSlots_enterBodyLeave p, rfl, rfl⟩
  | allocPipe _ p => cases h; exact ⟨_, allocPipe_enterBodyLeave p, rfl, rfl⟩
  | initPipe _ p => cases h; exact ⟨_, initPipe_enterBodyLeave p, rfl, rfl⟩
  | deinitPipe _ p => cases h; exact ⟨_, deinitPipe_enterBodyLeave p, rfl, rfl⟩
  | freePipe _ p => cases h; exact ⟨_, freePipe_enterBodyLeave p, rfl, rfl⟩
  | enableInterrupts => cases h; exact ⟨_, enableInterrupts_enterBodyLeave, rfl, rfl⟩
  | disableInterrupts => cases h; exact ⟨_, disableInterrupts_enterBodyLeave, rfl, rfl⟩

end

end Sys2Proof.Machine
end

section
/-! The lock (spec/48_lock.md R206 to R211): what `enter` answers for each owner, and the statements about `lock`, `unlock`, the
two forms of an operation, and waiting. -/

namespace Sys2Proof.Machine

section
variable {s t : State} {i : Instr} {nl : Bool} {k : Nat}

/-! ### `enter` by the lock's owner (R206, R207, R209, R210) -/

theorem State.enter_nolock_of_owner (h : s.lockOwner = some s.port) : s.enter true = .begins s := by
  simp [State.enter, h]

theorem State.enter_nolock_of_not_owner (h : s.lockOwner ≠ some s.port) :
    s.enter true = .refused .nolockWithoutLock := by
  simp [State.enter, h]

theorem State.enter_locked_of_owner (h : s.lockOwner = some s.port) : s.enter false = .refused .relockByOwner := by
  simp [State.enter, h]

theorem State.enter_locked_of_free (h : s.lockOwner = none) : s.enter false = .begins s.acquire := by
  simp [State.enter, h]

theorem State.enter_locked_of_held (h : s.lockOwner = some k) (hne : k ≠ s.port) : s.enter false = .waits := by
  simp [State.enter, h, hne]

/-! ### What a legal operation answers, by what `enter` answers -/

section
variable {legal : Bool} {body : State → Outcome} (hwf : i.wf s.nPipes = true) (hlegal : legal = true)
include hwf hlegal

theorem State.locked_of_refused {r : Refusal} (h : s.enter nl = .refused r) : s.locked i nl legal body = .refused r := by
  simp [State.locked, hwf, hlegal, h]

theorem State.locked_of_waits (h : s.enter nl = .waits) : s.locked i nl legal body = .next (s.park i) := by
  simp [State.locked, hwf, hlegal, h]

theorem State.locked_of_begins (h : s.enter nl = .begins t) : s.locked i nl legal body = body t := by
  simp [State.locked, hwf, hlegal, h]

end

/-! ### The two forms (R209, R210) -/

theorem wf_nolockForm (i : Instr) (n : Nat) : (nolockForm i).wf n = i.wf n := by cases i <;> rfl

theorem operandsOk_nolockForm (i : Instr) (p : Port) : operandsOk (nolockForm i) p = operandsOk i p := by cases i <;> rfl

/-- Settles O18: a nolock form enters only where its port holds the lock, and its body leaves the lock alone. -/
theorem nolockFormNeedsTheLock : Obligations.NolockFormNeedsTheLock := by
  refine ⟨fun i s hi hwf hops hlock => ?_, fun i s t hi h => ?_⟩
  · obtain ⟨body, hexec⟩ := exec_eq_locked hi
    exact (hexec s).trans (State.locked_of_refused hwf hops (State.enter_nolock_of_not_owner hlock))
  · obtain ⟨op, ⟨body, hexec, hleaves⟩, rfl, -⟩ := enterBodyLeave_of_nolock hi
    rw [hexec] at h
    obtain ⟨-, -, ⟨hform, -⟩ | ⟨hlock, hbody⟩⟩ := State.locked_next _ _ _ _ _ _ h
    · cases hform
    · exact ⟨hlock, (hleaves s.acquire).nolock_keeps hbody⟩

/-- Settles O22: both forms run the same body with the lock held, and an illegal command is refused in both. -/
theorem lockedFormIsAcquireNolockRelease : Obligations.LockedFormIsAcquireNolockRelease := by
  intro i s hi hfree
  obtain ⟨op, ⟨body, hexec, hleaves⟩, rfl, hform⟩ := enterBodyLeave_of_nolock hi
  have hwf := wf_nolockForm (op false) s.nPipes
  have hops := operandsOk_nolockForm (op false) s.cur
  rw [← hform] at hwf hops ⊢
  rw [hexec, hexec]
  by_cases hlegal : (op false).wf s.nPipes = true ∧ operandsOk (op false) s.cur = true
  · obtain ⟨hwf', hops'⟩ := hlegal
    have hnolock : s.acquire.locked (op true) true (operandsOk (op true) s.cur) (body true) = body true s.acquire :=
      State.locked_of_begins (s := s.acquire) (hwf.trans hwf') (hops.trans hops') (State.enter_nolock_of_owner rfl)
    calc s.locked (op false) false (operandsOk (op false) s.cur) (body false)
        = body false s.acquire := State.locked_of_begins hwf' hops' (State.enter_locked_of_free hfree)
      _ = mapNext State.release (body true s.acquire) := (hleaves s.acquire).locked_eq
      _ = _ := congrArg (mapNext State.release) hnolock.symm
  · have hillegal : (op false).wf s.nPipes = false ∨ operandsOk (op false) s.cur = false := by
      simpa [or_iff_not_imp_left] using hlegal
    rw [State.locked_of_illegal hillegal, State.locked_of_illegal (s := s.acquire) (by simpa [hwf, hops] using hillegal)]
    rfl

/-! ### `lock` and `unlock` (R206 to R208) -/

theorem exec_lock_of_free (h : s.lockOwner = none) : exec .lock s = .next (s.acquire.returnStatus .ok) := by
  simp [exec, execLock, h]

theorem exec_lock_of_held (h : s.lockOwner = some k) (hne : k ≠ s.port) : exec .lock s = .next (s.park .lock) := by
  simp [exec, execLock, h, hne]

theorem exec_lock_of_owner (h : s.lockOwner = some s.port) : exec .lock s = .refused .relockByOwner := if_pos h

/-- Settles O17: the two operations by the lock's owner. -/
theorem lockAndUnlockMoveTheLock : Obligations.LockAndUnlockMoveTheLock :=
  ⟨rfl, rfl, fun _ _ hfree => exec_lock_of_free hfree, fun _ _ hheld hne => exec_lock_of_held hheld hne,
    fun _ howner => exec_lock_of_owner howner, fun _ _ howner => if_pos howner, fun _ hother => if_neg hother⟩

/-! ### The owner and the waiters (R206, R207, R211) -/

theorem State.serviceEntry_of_owner (h : s.lockOwner = some s.port) (k : Outcome) :
    s.serviceEntry k = .refused .relockByOwner := if_pos h

/-- Settles O19: `lock`, a locked form and the entry of a service operation all look at the owner first. -/
theorem ownerCannotRelock : Obligations.OwnerCannotRelock := by
  intro i s hi hunlock hwf hops howner
  cases hnl : i.nolock? with
  | some nl =>
    obtain rfl : nl = false := by simpa [hnl] using hi
    obtain ⟨body, hexec⟩ := exec_eq_locked hnl
    exact (hexec s).trans (State.locked_of_refused hwf hops (State.enter_locked_of_owner howner))
  | none =>
    cases i with
    | lock => exact exec_lock_of_owner howner
    | unlock => exact absurd rfl hunlock
    | servicePipe p => exact (if_pos hwf).trans (State.serviceEntry_of_owner howner _)
    | serviceAnyPending => exact State.serviceEntry_of_owner howner _
    | _ => cases hnl

/-- While another port holds the lock, `lock` and a locked form make the port wait. -/
theorem exec_of_held (hi : i.nolock? = some false ∨ i = .lock) (hwf : i.wf s.nPipes = true)
    (hops : operandsOk i s.cur = true) (hheld : s.lockOwner = some k) (hne : k ≠ s.port) :
    exec i s = .next (s.park i) := by
  obtain hi | rfl := hi
  · obtain ⟨body, hexec⟩ := exec_eq_locked hi
    exact (hexec s).trans (State.locked_of_waits hwf hops (State.enter_locked_of_held hheld hne))
  · exact exec_lock_of_held hheld hne

/-- Settles O20: the port waits with its operation, or in phase A. -/
theorem heldLockMakesOperationWait : Obligations.HeldLockMakesOperationWait := by
  refine ⟨fun i s k hi hwf hops hheld hne => exec_of_held hi hwf hops hheld hne, fun p s k hid hheld hne hidle => ?_⟩
  have hlock : s.lockOwner ≠ some s.port := by simp [hheld, hne]
  rw [exec_servicePipe hid, State.serviceEntry_of_idle hlock hidle, State.phaseA_held s _ _ _ (by simp [hheld])]
  rfl

/-! ### Going on (R207, R180) -/

/-- The running port written with what it holds. -/
@[simp] theorem State.setCur_self (s : State) : s.setCur s.cur = s := by
  have hset : s.ports.set s.port s.cur = s.ports := by
    by_cases hport : s.port < s.ports.length
    · simp [State.cur, hport]
    · exact List.set_eq_of_length_le (not_lt.1 hport)
  rw [State.setCur, hset]

/-- A port that tries its waiting operation again and must wait is as it was. -/
theorem State.park_retried (hport : s.port < s.nHosts) (hwait : s.cur.waiting = some i) :
    (s.setCur { s.cur with waiting := none }).park i = s := by
  have hsame : { s.cur with waiting := some i } = s.cur := by rw [← hwait]
  rw [State.park, State.setCur_cur s _ hport, State.setCur_setCur, hsame, State.setCur_self]

theorem operandsOk_waiting (i : Instr) (p : Port) (w : Option Instr) :
    operandsOk i { p with waiting := w } = operandsOk i p := by cases i <;> rfl

/-- A waiting operation that tries the lock while another port holds it changes nothing (R207). -/
theorem exec_retry_of_held (hport : s.port < s.nHosts) (hwait : s.cur.waiting = some i)
    (hi : i.nolock? = some false ∨ i = .lock) (hwf : i.wf s.nPipes = true) (hops : operandsOk i s.cur = true)
    (hheld : s.lockOwner = some k) (hne : k ≠ s.port) :
    exec i (s.setCur { s.cur with waiting := none }) = .next s := by
  have hops' : operandsOk i (s.setCur { s.cur with waiting := none }).cur = true := by
    rw [State.setCur_cur s _ hport, operandsOk_waiting, hops]
  rw [exec_of_held (s := s.setCur _) hi hwf hops' hheld hne, State.park_retried hport hwait]

/-- A service operation that waits in phase A goes on waiting while another port holds the lock. -/
theorem State.phaseA_retried {id : Nat} {enclosed : Bool} {rem : U32} (hheld : s.lockOwner ≠ none)
    (hsvc : s.cur.svc = some ⟨.phaseA id, enclosed, rem⟩) : s.phaseA id enclosed rem = s := by
  rw [State.phaseA_held s id enclosed rem hheld, ← hsvc, State.setSvc, State.setCur_self]

theorem step_waiting {h : Nat} {rest : List Input} (hin : s.inputs = .advance h :: rest) (hport : h < s.nHosts)
    (hwait : (s.portAt h).waiting = some i) :
    step s = exec i ((s.atMove h rest).setCur { s.portAt h with waiting := none }) := by
  have hwait' : (s.atMove h rest).cur.waiting = some i := hwait
  calc step s = advancePort h { s with inputs := rest } := step_of_inputs hin
    _ = goOn (s.atMove h rest) := if_pos hport
    _ = _ := by simp only [goOn, hwait']; rfl

theorem State.serviceStage_phaseA {id : Nat} (hlock : s.lockOwner ≠ some s.port) (enclosed : Bool) (rem : U32) :
    s.serviceStage ⟨.phaseA id, enclosed, rem⟩ = .next (s.phaseA id enclosed rem) := if_neg hlock

/-- Settles O21: the waiting operation is tried in the state as it then is, and phase A is run or waited for again. -/
theorem waitingOperationResumes : Obligations.WaitingOperationResumes := by
  refine ⟨fun s h i rest hin hport hwait => ⟨step_waiting hin hport hwait, fun k hheld hne hi hwf hops => ?_⟩,
    fun s h id enclosed rem rest hin hport hid hwait hsvc => ?_⟩
  · exact (step_waiting hin hport hwait).trans
      (exec_retry_of_held (s := s.atMove h rest) hport hwait hi hwf hops hheld hne)
  · rw [step_serviceStage hin hport hwait hsvc]
    refine ⟨fun hfree => ?_, fun k hheld hne => ?_⟩
    · rw [State.serviceStage_phaseA (by simp [hfree])]
      exact ⟨_, rfl, State.statusCleared_phaseA (s := s.atMove h rest) hport hid hfree enclosed rem⟩
    · rw [State.serviceStage_phaseA (by simp [hheld, hne])]
      exact congrArg Host.Outcome.next (State.phaseA_retried (s := s.atMove h rest) (by simp [hheld]) hsvc)

end

end Sys2Proof.Machine
end
